-- ==== Sys2Proof/Word.lean ====
section
/-! DEFINITION. The words of the transceiver: its bytes, its register offsets and the host access word
(spec/00_scope.md R10, R13; spec/30_encoding.md R93). -/

namespace Sys2Proof

/-- A byte, unsigned, 0 to 255: the `u8` of R10. Every host-visible register is one byte wide (R13). -/
abbrev Byte := BitVec 8

/-- A register offset, 6 bits, 0x00 to 0x3F (R7, R20). -/
abbrev Offset := BitVec 6

/-- The host access word `{DIR, OFF[5:0], DATA[7:0]}`, 15 bits (R93). -/
abbrev AccessWord := BitVec 15

/-- A 16-bit value: the `u16` of R10, and the carrier of an `i16`. -/
abbrev Word16 := BitVec 16

end Sys2Proof
end

