-- ==== Sys2Proof/Config.lean ====
section
/-! DEFINITION. What is fixed for one transceiver and is not state (spec/00_scope.md R7, R8, R9): the
parameters, and the free inputs of the model (the program the host runs and the environment's answers). -/

namespace Sys2Proof

/-- How the transport answers the one fallible call of an engine step (R63, R64, R65): a free draw of the
environment. `err` is `Err`. `ok unsent` is `Ok`: for a write, all offered bytes but the last `unsent` have gone
onto the line (so the count c takes every value 0 to len(s), and no other); a read ignores `unsent`, since what a
successful read returns is fixed by R64. -/
inductive Answer
  | err
  | ok (unsent : Nat)
deriving DecidableEq, Repr, Inhabited

/-- One atomic step of one agent (R5, R6), with the free inputs that step takes from outside. -/
inductive Event
  /-- The host performs one register access (R180, R181), spelled as its access word (R93). -/
  | access (w : AccessWord)
  /-- The engine takes its step, if it has one (R143); the transport gives this answer. -/
  | engine (a : Answer)
  /-- The environment's `Arrive(b)` (R61). -/
  | arrive (b : Byte)
  /-- The clock's `Tick` (R262). -/
  | tick
  /-- The platform resets the transceiver (R280). -/
  | reset
deriving DecidableEq, Repr, Inhabited

/-- The four timing parameters, in milliseconds (R8). -/
structure Timing where
  /-- `T_HEADER_MS`, the header deadline. -/
  header : Nat
  /-- `T_BODY_MS`, the body deadline. -/
  body : Nat
  /-- `T_ECHO_MS`, the per-read timeout of echo cancellation; it appears in no rule (R8, R291). -/
  echo : Nat
  /-- `T_POLL_MS`, the duration of one polling read; it appears in no rule (R8, R291). -/
  poll : Nat
deriving DecidableEq, Repr, Inhabited

/-- What R8 requires of the timing parameters: each at least 1, and `T_BODY_MS > T_HEADER_MS`. -/
abbrev Timing.Legal (t : Timing) : Prop :=
  1 ≤ t.header ∧ t.header < t.body ∧ 1 ≤ t.echo ∧ 1 ≤ t.poll

/-- The command codes servos understand, one named parameter `CMD_*` for each (R208). The transceiver never
interprets one (R88); only the host software of spec/45 and spec/46 uses them. -/
structure CommandCodes where
  moveTimeWrite : Byte
  moveStop : Byte
  idWrite : Byte
  idRead : Byte
  angleOffsetAdjust : Byte
  angleOffsetWrite : Byte
  angleOffsetRead : Byte
  angleLimitWrite : Byte
  angleLimitRead : Byte
  vinLimitWrite : Byte
  vinLimitRead : Byte
  tempLimitWrite : Byte
  tempLimitRead : Byte
  tempRead : Byte
  vinRead : Byte
  posRead : Byte
  motorModeWrite : Byte
  motorModeRead : Byte
  loadOrUnloadWrite : Byte
  loadOrUnloadRead : Byte
deriving DecidableEq, Repr, Inhabited

namespace Config

/-- `HDR0` (R7). -/
def hdr0 : Byte := 0x55
/-- `HDR1` (R7). -/
def hdr1 : Byte := 0x55
/-- `BROADCAST_ID` (R7). -/
def broadcastId : Byte := 254
/-- `MAX_FRAME`, in bytes (R7). -/
def maxFrame : Nat := 16
/-- `MAX_PARAMS` (R7, spec/90_conflicts.md C2). -/
def maxParams : Nat := 10
/-- `HDR_BYTES` (R7). -/
def hdrBytes : Nat := 4

/-- How far `T_HEADER_MS` exceeds 1: open (R8, D25). Notes entry 7. -/
opaque headerSlack : Nat
/-- How far `T_BODY_MS` exceeds `T_HEADER_MS + 1`: open (R8, D25). Notes entry 7. -/
opaque bodySlack : Nat
/-- How far `T_ECHO_MS` exceeds 1: open (R8, D25). Notes entry 7. -/
opaque echoSlack : Nat
/-- How far `T_POLL_MS` exceeds 1: open (R8, D25). Notes entry 7. -/
opaque pollSlack : Nat

/-- The transceiver's timing parameters: any values that R8 allows, and none in particular. -/
def timing : Timing where
  header := headerSlack + 1
  body := headerSlack + 1 + bodySlack + 1
  echo := echoSlack + 1
  poll := pollSlack + 1

/-- The reference values of D25, used by the model's own tests only. -/
def referenceTiming : Timing := ⟨50, 60, 10, 10⟩

/-- The command codes of this installation: open parameters (R208, D42). Notes entry 8. -/
opaque commandCodes : CommandCodes

/-- The reference values of R208. PRESUMED (K1, the LX-16A protocol, from general knowledge); used by the
model's own tests only. Notes entry 8. -/
def referenceCodes : CommandCodes where
  moveTimeWrite := 0x01
  moveStop := 0x0C
  idWrite := 0x0D
  idRead := 0x0E
  angleOffsetAdjust := 0x11
  angleOffsetWrite := 0x12
  angleOffsetRead := 0x13
  angleLimitWrite := 0x14
  angleLimitRead := 0x15
  vinLimitWrite := 0x16
  vinLimitRead := 0x17
  tempLimitWrite := 0x18
  tempLimitRead := 0x19
  tempRead := 0x1A
  vinRead := 0x1B
  posRead := 0x1C
  motorModeWrite := 0x1D
  motorModeRead := 0x1E
  loadOrUnloadWrite := 0x1F
  loadOrUnloadRead := 0x20

/-- `BLOCK_BASE`: where the 64 offsets sit in the host's address space, for the platform to decide (R56). No
rule depends on it. Notes entry 9. -/
opaque blockBase : Nat

/-- The host address of a register offset (R56). -/
def hostAddress (off : Offset) : Nat := blockBase + off.toNat

/-- The n-th agent step of a run whose interleaving is not written out in the state: a free draw (R6, R9).
Notes entry 1. -/
opaque freeEvent : Nat → Event

/-- The bytes that reach the line in a write the transport answers with `Err`: "On `Err` nothing is known of
the line" (R63), so a free value. Notes entry 3. -/
opaque lineAfterFailedWrite : Nat → List Byte

end Config

end Sys2Proof
end

