-- ==== Sys2Proof/Syntax.lean ====
section
/-! DEFINITION. The instructions of the transceiver: one constructor per row of spec/opcode_table.json
(spec/30_encoding.md R80 to R82, R93; spec/42_host_access.md). -/

namespace Sys2Proof

/-- One host register access (format HOST, R80). The bits an encoding ignores (R81, R92) are no part of the
instruction. -/
inductive Instr
  /-- `CTRL.NOP`: a CTRL write with OP = 0 (R182). -/
  | ctrlNop
  /-- `CTRL.ENCODE`: a CTRL write with OP = 1 (R116). -/
  | ctrlEncode
  /-- `CTRL.DECODE`: a CTRL write with OP = 2 (R117). -/
  | ctrlDecode
  /-- `CTRL.TRANSACT`: a CTRL write with OP = 3; the operand is the W bit, WANT_REPLY (R140, R81). -/
  | ctrlTransact (wantReply : Bool)
  /-- `REG_WRITE`: a write of `data` at `off` (R181). -/
  | regWrite (off : Offset) (data : Byte)
  /-- `REG_READ`: a read at `off` (R180). -/
  | regRead (off : Offset)
deriving DecidableEq, Repr

end Sys2Proof
end

