-- ==== Sys2Proof/WellFormed.lean ====
section
/-! DEFINITION. Which instructions an encoding stands for (spec/42_host_access.md R181). -/

namespace Sys2Proof

/-- Every instruction has an encoding but one form: REG_WRITE is taken "only when no `CTRL.*` row matched first,
that is, when OFF ≠ 0x00" (R181). -/
def Instr.wellFormed : Instr → Bool
  | .ctrlNop => true
  | .ctrlEncode => true
  | .ctrlDecode => true
  | .ctrlTransact _ => true
  | .regWrite off _ => off != 0
  | .regRead _ => true

end Sys2Proof
end

