-- ==== Sys2Proof/Decode.lean ====
section
/-! DEFINITION. Decoding and encoding of host access words (spec/30_encoding.md R81, R93; spec/opcode_table.json). -/

namespace Sys2Proof

/-- DATA, bits 7:0 (R93). -/
def wordData (w : AccessWord) : Byte := w.extractLsb' 0 8

/-- OFF, bits 13:8 (R93). -/
def wordOff (w : AccessWord) : Offset := w.extractLsb' 8 6

/-- W (WANT_REPLY), bit 2 of the byte written to CTRL (R81). -/
def wordWant (w : AccessWord) : Bool := w.getLsbD 2

/-- One row of spec/opcode_table.json: the words with `word & mask = match` are the row's, unless an earlier
row takes them (R93). -/
structure Row where
  mnemonic : String
  pattern : AccessWord
  mask : AccessWord
  instr : AccessWord → Instr

/-- The rows of spec/opcode_table.json, in its order: the CTRL rows before the generic write row (R93). -/
def opcodeTable : List Row :=
  [ ⟨"CTRL.NOP", 0x4000, 0x7F03, fun _ => .ctrlNop⟩
  , ⟨"CTRL.ENCODE", 0x4001, 0x7F03, fun _ => .ctrlEncode⟩
  , ⟨"CTRL.DECODE", 0x4002, 0x7F03, fun _ => .ctrlDecode⟩
  , ⟨"CTRL.TRANSACT", 0x4003, 0x7F03, fun w => .ctrlTransact (wordWant w)⟩
  , ⟨"REG_WRITE", 0x4000, 0x4000, fun w => .regWrite (wordOff w) (wordData w)⟩
  , ⟨"REG_READ", 0x0000, 0x4000, fun w => .regRead (wordOff w)⟩ ]

/-- Does a row claim a word: `word & mask = match` (R93). -/
def rowTakes (r : Row) (w : AccessWord) : Bool := w &&& r.mask == r.pattern

/-- Why a bit pattern is no instruction. -/
inductive DecodeError
  /-- No row of the table takes the word. -/
  | noTableRow
  /-- A 16-bit container whose bit 15 is set holds no access word, which has 15 bits (R93). -/
  | widerThanAccessWord
  /-- Fewer than two bytes hold no access word. -/
  | tooFewBytes
deriving DecidableEq, Repr

/-- The decoder of R93: the first row that takes the word. -/
def decode (w : AccessWord) : Except DecodeError Instr :=
  match opcodeTable.find? (fun r => rowTakes r w) with
  | some r => .ok (r.instr w)
  | none => .error .noTableRow

/-- Two bytes as a 16-bit container, the byte at the lower address the less significant one (DESIGN CHOICE,
notes entry 10: the spec stores access words nowhere), decoded if the container holds an access word. -/
def decodeBytes (lo hi : Byte) : Except DecodeError Instr :=
  if hi.getLsbD 7 then .error .widerThanAccessWord
  else decode ((hi ++ lo).extractLsb' 0 15)

/-- Any bytes: the instruction of the first two, and the bytes after them. -/
def decodeStream : List Byte → Except DecodeError (Instr × List Byte)
  | lo :: hi :: rest => (decodeBytes lo hi).map (fun i => (i, rest))
  | _ => .error .tooFewBytes

/-- The word `{DIR, OFF, DATA}` (R93). -/
def accessWord (dir : Bool) (off : Offset) (data : Byte) : AccessWord :=
  BitVec.ofBool dir ++ off ++ data

/-- The byte of a CTRL write: `rrrrrWoo` with the reserved bits 0 (R81). -/
def ctrlByte (op : BitVec 2) (want : Bool) : Byte := 0#5 ++ BitVec.ofBool want ++ op

/-- The canonical word of an instruction: ignored bits 0 (R81, R92; notes entry 14), and a read carries 0 (R93). -/
def encode : Instr → AccessWord
  | .ctrlNop => accessWord true 0 (ctrlByte 0 false)
  | .ctrlEncode => accessWord true 0 (ctrlByte 1 false)
  | .ctrlDecode => accessWord true 0 (ctrlByte 2 false)
  | .ctrlTransact want => accessWord true 0 (ctrlByte 3 want)
  | .regWrite off data => accessWord true off data
  | .regRead off => accessWord false off 0

/-- The instruction the decoder reads from the first `nbits` bits of `w`, numbered as spec/opcode_table.json
numbers them, laid out as two bytes (and further bytes, all 0, that no instruction uses). -/
def decodeTableWord (nbits w : Nat) : Option Instr :=
  let bits : BitVec 16 := BitVec.ofNat 16 (w % 2 ^ nbits)
  if 2 ^ 16 ≤ w % 2 ^ nbits then none
  else
    match decodeStream [bits.extractLsb' 0 8, bits.extractLsb' 8 8] with
    | .ok (i, _) => some i
    | .error _ => none

end Sys2Proof
end

