-- ==== Sys2Proof/Machine/State.lean ====
section
/-! DEFINITION. The state of the transceiver and of its environment (spec/10_state.md R20 to R39; spec/20_memory.md
R61, R63; spec/60_exceptions.md R262), its state after reset (spec/70_reset_and_hazards.md R280), and why a step
can stop. -/

namespace Sys2Proof.Machine

/-- Field STATE of FSM_STATE, "its analogue of a program counter" (R24). Values 5 to 7 are never held. -/
inductive FsmState
  | idle
  | sending
  | discardingEcho
  | awaitingHeader
  | awaitingBody
deriving DecidableEq, Repr

/-- The four flags of STATUS (R23, R39); its bits [7:4] are reserved and read 0.
DESIGN CHOICE: four flags and no byte (notes entry 18). -/
structure Status where
  /-- STATUS[0]: a TRANSACT is in flight. -/
  busy : Bool
  /-- STATUS[1]: a command has completed since the last accepted start or reset (D48). -/
  done : Bool
  /-- STATUS[2]: a start was turned away while busy. -/
  rejected : Bool
  /-- STATUS[3]: the TRANSACT in flight or completed expects a reply. -/
  replyExp : Bool
deriving DecidableEq, Repr

/-- The transceiver, its environment, and what the model needs to be one deterministic step function. -/
structure State where
  /-- STATUS, offset 0x01 (R23). -/
  status : Status
  /-- RESULT, offset 0x02: `{DETAIL[3:0], CODE[3:0]}` (R25, R91). -/
  result : Byte
  /-- FSM_STATE, offset 0x03 (R24). -/
  fsm : FsmState
  /-- REQ_ID, offset 0x04 (R26). -/
  reqId : Byte
  /-- REQ_CMD, offset 0x05 (R27). -/
  reqCmd : Byte
  /-- REQ_NPARAM, offset 0x06 (R28). -/
  reqNparam : Byte
  /-- REQ_PARAM[0..9], offsets 0x10 to 0x19 (R29). -/
  reqParam : Vector Byte 10
  /-- TXLEN, offset 0x07 (R31). -/
  txlen : Byte
  /-- TXBUF[0..15], offsets 0x20 to 0x2F (R30). -/
  txbuf : Vector Byte 16
  /-- RXCNT, offset 0x08 (R33). -/
  rxcnt : Byte
  /-- RXBUF[0..15], offsets 0x30 to 0x3F (R32). -/
  rxbuf : Vector Byte 16
  /-- ECHO_REM, offset 0x09 (R34). -/
  echoRem : Byte
  /-- EXP_LEN, offset 0x0A (R35). -/
  expLen : Byte
  /-- DEADLINE, hidden: milliseconds on the clock, unbounded as D24 decides (R37; notes entry 15). -/
  deadline : Nat
  /-- The transport's queue of received bytes not yet read, the earliest first (R61): environment. -/
  rxq : List Byte
  /-- The clock, in milliseconds (R262): environment. -/
  now : Nat
  /-- Every byte that has gone onto the line from the transceiver, in order (R52, R63): environment.
  Notes entry 4. -/
  line : List Byte
  /-- Every byte a REG_READ has returned to the host, in order (R180): environment. Notes entry 5. -/
  hostReads : List Byte
  /-- THE MODEL'S OWN: the agent steps that come next, in order (R6). Notes entry 1. -/
  upcoming : List Event
  /-- THE MODEL'S OWN: how many free values have been drawn so far. Notes entry 1. -/
  draws : Nat
deriving DecidableEq, Repr

/-- Why the machine stops. The transceiver itself has no fault (R250): each of these marks a state no run reaches,
in which the spec's own side condition of an engine step fails. All are safe (notes entry 12). -/
inductive Fault
  /-- Raised by an engine step with BUSY = 1 and FSM_STATE = IDLE, for which R143 lists no step. Safe. -/
  | noEngineStep
  /-- Raised by SENDING with TXLEN above 16: TXBUF[0 .. TXLEN-1] (R144) is no part of TXBUF. Safe. -/
  | frameOverrun
  /-- Raised by a read step that would ask for no byte: `TransportRead(r)` is given for r ≥ 1 only (R64). Safe. -/
  | emptyRead
  /-- Raised by an append that would write past RXBUF[15] (R151). Safe. -/
  | bufferOverrun
  /-- Raised by a final decode with an outcome other than Ok and CHECKSUM_MISMATCH: "No other result is possible
  here" (R158). Safe. -/
  | impossibleDecode
deriving DecidableEq, Repr

/-- Why an instruction has no meaning. -/
inductive Refusal
  /-- Raised by exec's arm of an instruction not modelled yet; no arm of this model raises it. Safe. -/
  | notModelled (mnemonic : String)
  /-- Raised by a host access whose word no row of the opcode table takes; no word is such. Safe. -/
  | noTableRow
deriving DecidableEq, Repr

/-- The state right after reset: every register 0x00, DEADLINE 0 (R280). The reset touches neither `rxq` nor the
clock (R281); that they are empty and 0 at the start of a run, and that the traces and the model's own fields are
empty, is DESIGN CHOICE (notes entries 4, 5, 6, 19). -/
def State.reset : State where
  status := ⟨false, false, false, false⟩
  result := 0
  fsm := .idle
  reqId := 0
  reqCmd := 0
  reqNparam := 0
  reqParam := Vector.replicate 10 0
  txlen := 0
  txbuf := Vector.replicate 16 0
  rxcnt := 0
  rxbuf := Vector.replicate 16 0
  echoRem := 0
  expLen := 0
  deadline := 0
  rxq := []
  now := 0
  line := []
  hostReads := []
  upcoming := []
  draws := 0

end Sys2Proof.Machine
end

