-- ==== Sys2Proof/Machine/Flags.lean ====
section
/-! DEFINITION. The flags of STATUS and the coded registers FSM_STATE and RESULT: how each reads, and every way a
step writes a flag (spec/10_state.md R23 to R25, R39; spec/60_exceptions.md R251, R252). -/

namespace Sys2Proof.Machine

/-- RegRead(0x01): `{0000, REPLY_EXP, REJECTED, DONE, BUSY}` (R180). -/
def statusByte (st : Status) : Byte :=
  0#4 ++ BitVec.ofBool st.replyExp ++ BitVec.ofBool st.rejected ++ BitVec.ofBool st.done ++ BitVec.ofBool st.busy

/-- An accepted start clears DONE, REJECTED and REPLY_EXP (R184). -/
def statusOnStart (st : Status) : Status := { st with done := false, rejected := false, replyExp := false }

/-- A start turned away sets REJECTED and nothing else (R183). -/
def statusOnReject (st : Status) : Status := { st with rejected := true }

/-- A TRANSACT whose encode succeeds sets BUSY, and REPLY_EXP as R141 gives it (R140). -/
def statusOnTransact (replyExp : Bool) (st : Status) : Status := { st with busy := true, replyExp := replyExp }

/-- A completion sets DONE and clears BUSY (R255). -/
def statusOnComplete (st : Status) : Status := { st with done := true, busy := false }

/-- RegRead(0x03): STATE in bits [2:0], bits [7:3] 0 (R24). -/
def fsmByte : FsmState → Byte
  | .idle => 0
  | .sending => 1
  | .discardingEcho => 2
  | .awaitingHeader => 3
  | .awaitingBody => 4

/-- RESULT.CODE (R251). -/
inductive Code
  | ok
  | transportFailure
  | timeoutAwaitingHeader
  | timeoutReadingBody
  | checksumMismatch
  | malformedResponse
  | oversizeResponse
  | invalidRequest
deriving DecidableEq, Repr

/-- The number of a code (R251). -/
def codeBits : Code → BitVec 4
  | .ok => 0
  | .transportFailure => 1
  | .timeoutAwaitingHeader => 2
  | .timeoutReadingBody => 3
  | .checksumMismatch => 4
  | .malformedResponse => 5
  | .oversizeResponse => 6
  | .invalidRequest => 7

/-- An outcome as `raise E(d)` names it: a code and its sub-cause (R12, R252). -/
structure Raised where
  code : Code
  detail : BitVec 4
deriving DecidableEq, Repr

/-- The RESULT byte `{DETAIL[3:0], CODE[3:0]}` (R91). -/
def resultByte (r : Raised) : Byte := r.detail ++ codeBits r.code

/-- The code a RESULT byte names, in bits [3:0]; 8 to 15 are never produced (R251). -/
def codeOfResult (b : Byte) : Option Code :=
  match (b.extractLsb' 0 4).toNat with
  | 0 => some .ok
  | 1 => some .transportFailure
  | 2 => some .timeoutAwaitingHeader
  | 3 => some .timeoutReadingBody
  | 4 => some .checksumMismatch
  | 5 => some .malformedResponse
  | 6 => some .oversizeResponse
  | 7 => some .invalidRequest
  | _ => none

end Sys2Proof.Machine
end

