-- ==== Sys2Proof/Machine/Codec.lean ====
section
/-! DEFINITION. The frame codec: the pure functions CKS, HDR_OK, the length predicates, EncodeFrame and DecodeFrame
(spec/40_frame_codec.md R110 to R115, R118; spec/30_encoding.md R83 to R90), and the 16-byte buffers they work on. -/

namespace Sys2Proof.Machine

/-- A 16-byte buffer given entry by entry. -/
def bufOf (f : Nat → Byte) : Vector Byte 16 :=
  #v[f 0, f 1, f 2, f 3, f 4, f 5, f 6, f 7, f 8, f 9, f 10, f 11, f 12, f 13, f 14, f 15]

/-- Entry `i` of a buffer; only `i < 16` is one (R30, R32; notes entry 23). -/
def byteAt (b : Vector Byte 16) (i : Nat) : Byte := b.toList.getD i 0

/-- A frame in a buffer, every entry after it 0x00 (R116, R140). -/
def bufOfList (f : List Byte) : Vector Byte 16 := bufOf (fun i => f.getD i 0)

/-- The buffer of zeros (R142, R280). -/
def zeroBuf : Vector Byte 16 := Vector.replicate 16 0

/-- `sum8(s) = (Σ_i s[i]) mod 256` (R11): the exact sum, narrowed once. -/
def sum8 (s : List Byte) : Byte := BitVec.ofNat 8 (s.map BitVec.toNat).sum

/-- `CKS(s) = ~sum8(s)` (R110). -/
def cks (s : List Byte) : Byte := ~~~ sum8 s

/-- `HDR_OK(b0, b1)` (R111). -/
def hdrOk (b0 b1 : Byte) : Bool := b0 == Config.hdr0 && b1 == Config.hdr1

/-- `IMPLAUSIBLE(L) = L < 3` (R112). -/
def implausible (l : Byte) : Bool := l.toNat < 3

/-- `OVERSIZE(L) = 3 + L > MAX_FRAME` (R112). -/
def oversize (l : Byte) : Bool := Config.maxFrame < 3 + l.toNat

/-- EncodeFrame (R113): the parameter count is checked first, then the id; nothing is truncated. -/
def encodeFrame (id cmd n : Byte) (p : Vector Byte 10) : Except Raised (List Byte) :=
  if Config.maxParams < n.toNat then .error ⟨.invalidRequest, 1⟩
  else if id = 255 then .error ⟨.invalidRequest, 2⟩
  else
    let body := [id, BitVec.ofNat 8 (n.toNat + 3), cmd] ++ p.toList.take n.toNat
    .ok ([Config.hdr0, Config.hdr1] ++ body ++ [cks body])

/-- DecodeFrame (R114): the checks in the spec's order, the first failure returned; `c` is at most 16. -/
def decodeFrame (b : Vector Byte 16) (c : Nat) : Except Raised Nat :=
  let l := byteAt b 3
  if c < 2 then .error ⟨.malformedResponse, 2⟩
  else if !hdrOk (byteAt b 0) (byteAt b 1) then .error ⟨.malformedResponse, 1⟩
  else if c < 4 then .error ⟨.malformedResponse, 2⟩
  else if implausible l then .error ⟨.malformedResponse, 3⟩
  else if oversize l then .error ⟨.oversizeResponse, 0⟩
  else if c < 3 + l.toNat then .error ⟨.malformedResponse, 4⟩
  else if cks ((b.toList.drop 2).take l.toNat) ≠ byteAt b (2 + l.toNat) then .error ⟨.checksumMismatch, 0⟩
  else .ok (3 + l.toNat)

/-- The fields of a frame that DecodeFrame accepts, read at the positions of R115. -/
structure FrameView where
  id : Byte
  length : Byte
  command : Byte
  params : List Byte
  checksum : Byte
deriving DecidableEq, Repr

/-- The frame view of R115: parameters b[5 .. 4+N] with N = L − 3, checksum b[5+N]. -/
def frameView (b : Vector Byte 16) : FrameView where
  id := byteAt b 2
  length := byteAt b 3
  command := byteAt b 4
  params := (b.toList.drop 5).take ((byteAt b 3).toNat - 3)
  checksum := byteAt b (5 + ((byteAt b 3).toNat - 3))

end Sys2Proof.Machine
end

