-- ==== Sys2Proof/Machine/Operands.lean ====
section
/-! DEFINITION. The operand form of a host access, a 6-bit register offset: the register map, and reading a register
through it (spec/10_state.md R20, R36; spec/42_host_access.md R180, R188; spec/20_memory.md R53, R55). -/

namespace Sys2Proof.Machine

/-- The registers of the map of R20, by name. -/
inductive Reg
  | ctrl
  | status
  | result
  | fsmState
  | reqId
  | reqCmd
  | reqNparam
  | txlen
  | rxcnt
  | echoRem
  | expLen
  | reserved
  | reqParam (i : Fin 10)
  | txbuf (i : Fin 16)
  | rxbuf (i : Fin 16)
deriving DecidableEq, Repr

/-- The register at an offset (R20); every offset is accessible (R53). -/
def regAt (off : Offset) : Reg :=
  let n := off.toNat
  if h : 0x30 ≤ n ∧ n < 0x40 then .rxbuf ⟨n - 0x30, by omega⟩
  else if h : 0x20 ≤ n ∧ n < 0x30 then .txbuf ⟨n - 0x20, by omega⟩
  else if h : 0x10 ≤ n ∧ n < 0x1A then .reqParam ⟨n - 0x10, by omega⟩
  else if n = 0x00 then .ctrl
  else if n = 0x01 then .status
  else if n = 0x02 then .result
  else if n = 0x03 then .fsmState
  else if n = 0x04 then .reqId
  else if n = 0x05 then .reqCmd
  else if n = 0x06 then .reqNparam
  else if n = 0x07 then .txlen
  else if n = 0x08 then .rxcnt
  else if n = 0x09 then .echoRem
  else if n = 0x0A then .expLen
  else .reserved

/-- The offset of a register (R20), as the host assembly of R94 names it; the reserved offsets have no name of
their own, and the first of them stands for them. -/
def offsetOf : Reg → Offset
  | .ctrl => 0x00
  | .status => 0x01
  | .result => 0x02
  | .fsmState => 0x03
  | .reqId => 0x04
  | .reqCmd => 0x05
  | .reqNparam => 0x06
  | .txlen => 0x07
  | .rxcnt => 0x08
  | .echoRem => 0x09
  | .expLen => 0x0A
  | .reserved => 0x0B
  | .reqParam i => BitVec.ofNat 6 (0x10 + i.val)
  | .txbuf i => BitVec.ofNat 6 (0x20 + i.val)
  | .rxbuf i => BitVec.ofNat 6 (0x30 + i.val)

/-- The value a register reads as (R180): CTRL and the reserved offsets read 0x00 (R22, R36). -/
def readReg (s : State) : Reg → Byte
  | .ctrl => 0x00
  | .status => statusByte s.status
  | .result => s.result
  | .fsmState => fsmByte s.fsm
  | .reqId => s.reqId
  | .reqCmd => s.reqCmd
  | .reqNparam => s.reqNparam
  | .txlen => s.txlen
  | .rxcnt => s.rxcnt
  | .echoRem => s.echoRem
  | .expLen => s.expLen
  | .reserved => 0x00
  | .reqParam i => s.reqParam[i]
  | .txbuf i => s.txbuf[i]
  | .rxbuf i => s.rxbuf[i]

/-- `RegRead(off)` (R180): a read has no side effect (R55). -/
def regRead (s : State) (off : Offset) : Byte := readReg s (regAt off)

end Sys2Proof.Machine
end

