-- ==== Sys2Proof/Machine/Ops.lean ====
section
/-! DEFINITION. The shared operations: the completion of a command, which is the transceiver's "only analogue of trap
entry", and the accepted start, which is its return (spec/60_exceptions.md R250, R255, R258; spec/42_host_access.md
R183, R184); the calls of the transport port (spec/20_memory.md R61 to R66); the clock and the reset; the writes of
the receive buffer (spec/41_transaction.md R142, R151, R152). -/

namespace Sys2Proof.Machine

/-! ### Completion and start -/

/-- `raise E(d)` (R255): RESULT, DONE, BUSY and FSM_STATE, and no other register (R256). -/
def complete (r : Raised) (s : State) : State :=
  { s with result := resultByte r, status := statusOnComplete s.status, fsm := .idle }

/-- What every accepted start does first (R184): DONE, REJECTED, REPLY_EXP and RESULT are cleared. -/
def acceptStart (s : State) : State :=
  { s with status := statusOnStart s.status, result := 0 }

/-- A start while BUSY = 1: "Its only effect is `STATUS.REJECTED <- 1`" (R183). -/
def rejectStart (s : State) : State :=
  { s with status := statusOnReject s.status }

/-- A CTRL write with OP ≠ 0: rejected while BUSY = 1 (R183), else an accepted start of `command` (R184). -/
def guardedStart (command : State → State) (s : State) : State :=
  if s.status.busy then rejectStart s else command (acceptStart s)

/-- `session_init()` (R142). -/
def sessionInit (s : State) : State :=
  { s with txbuf := zeroBuf, txlen := 0, rxbuf := zeroBuf, rxcnt := 0, echoRem := 0, expLen := 0, deadline := 0 }

/-- EncodeFrame applied to the request registers (R116, R140). -/
def encodeRequest (s : State) : Except Raised (List Byte) :=
  encodeFrame s.reqId s.reqCmd s.reqNparam s.reqParam

/-- A frame into TXBUF and its length into TXLEN; the entries after it are 0x00 (R116, R140). -/
def loadFrame (f : List Byte) (s : State) : State :=
  { s with txbuf := bufOfList f, txlen := BitVec.ofNat 8 f.length }

/-! ### The transport port -/

/-- `TransportDiscard()` sets `rxq <- []` (R62). -/
def transportDiscard (s : State) : State := { s with rxq := [] }

/-- Bytes that have gone onto the line, in order (R52, R63). -/
def putOnLine (bytes : List Byte) (s : State) : State := { s with line := s.line ++ bytes }

/-- A write answered with `Err`: "nothing is known of the line" (R63), so what reached it is a free value. -/
def failedWrite (s : State) : State :=
  { s with line := s.line ++ Config.lineAfterFailedWrite s.draws, draws := s.draws + 1 }

/-- `TransportWrite(bytes)` (R63): `some c` for `Ok(c)`, `none` for `Err`, and what has gone onto the line. -/
def transportWrite (a : Answer) (bytes : List Byte) (s : State) : Option Nat × State :=
  match a with
  | .ok unsent => (some (bytes.length - unsent), putOnLine (bytes.take (bytes.length - unsent)) s)
  | .err => (none, failedWrite s)

/-- The first `r` bytes taken off `rxq` (R64). -/
def consume (r : Nat) (s : State) : State := { s with rxq := s.rxq.drop r }

/-- `TransportRead(r)` (R64): `some bytes` for `Ok(bytes)`, the min(r, len(rxq)) earliest bytes of `rxq`; `none` for
`Err`, which leaves `rxq` unchanged. -/
def transportRead (a : Answer) (r : Nat) (s : State) : Option (List Byte) × State :=
  match a with
  | .ok _ => (some (s.rxq.take r), consume r s)
  | .err => (none, s)

/-- `Arrive(b)` (R61). -/
def arrive (b : Byte) (s : State) : State := { s with rxq := s.rxq ++ [b] }

/-! ### The clock and the reset -/

/-- `Tick` (R262). -/
def tick (s : State) : State := { s with now := s.now + 1 }

/-- A deadline has expired when `Now() ≥ DEADLINE` (R264). -/
def deadlinePassed (s : State) : Bool := s.deadline ≤ s.now

/-- The test of a realisation with a W-bit wrapping counter: `((now − DEADLINE) mod 2^W) < 2^(W−1)` (R264). -/
def deadlinePassedWrapped (width : Nat) (now deadline : BitVec width) : Bool :=
  (now - deadline).toNat < 2 ^ (width - 1)

/-- Reset (R280): every register to its reset value and DEADLINE to 0. The environment keeps `rxq`, the clock and
what is on the line (R281), and the model's own fields keep their values (notes entry 20). -/
def platformReset (s : State) : State :=
  { State.reset with
    rxq := s.rxq, now := s.now, line := s.line, hostReads := s.hostReads, upcoming := s.upcoming, draws := s.draws }

/-- A byte returned to the host (R180). -/
def returnToHost (b : Byte) (s : State) : State := { s with hostReads := s.hostReads ++ [b] }

/-! ### The receive buffer -/

/-- `append(bytes)` (R151): the bytes after the RXCNT ones held, and RXCNT raised by their number. -/
def appendRx (bytes : List Byte) (s : State) : State :=
  { s with
    rxbuf := bufOf (fun i =>
      if s.rxcnt.toNat ≤ i ∧ i < s.rxcnt.toNat + bytes.length then bytes.getD (i - s.rxcnt.toNat) 0
      else byteAt s.rxbuf i)
    rxcnt := BitVec.ofNat 8 (s.rxcnt.toNat + bytes.length) }

/-- Does `resync()` shift: at least two bytes held and no header in front (R152). -/
def needsShift (s : State) : Bool :=
  2 ≤ s.rxcnt.toNat && !hdrOk (byteAt s.rxbuf 0) (byteAt s.rxbuf 1)

/-- The shift of `resync()` (R152): one byte to the left, the vacated entry 0x00, RXCNT lowered by one. -/
def shiftRx (s : State) : State :=
  { s with
    rxbuf := bufOf (fun i =>
      if i + 1 < s.rxcnt.toNat then byteAt s.rxbuf (i + 1)
      else if i + 1 = s.rxcnt.toNat then 0
      else byteAt s.rxbuf i)
    rxcnt := BitVec.ofNat 8 (s.rxcnt.toNat - 1) }

/-- `resync()` (R152): at most one shift per read. -/
def resync (s : State) : State := if needsShift s then shiftRx s else s

end Sys2Proof.Machine
end

