-- ==== Sys2Proof/Machine/Command.lean ====
section
/-! DEFINITION. The commands that a write to CTRL starts: NOP, ENCODE, DECODE and TRANSACT, and the dispatch of the
written byte (spec/42_host_access.md R182 to R184; spec/40_frame_codec.md R116, R117; spec/41_transaction.md R140,
R141). Each completes in the accepting step, but a TRANSACT whose encode succeeds. -/

namespace Sys2Proof.Machine

/-- ENCODE after its accepted start (R116). -/
def encodeCommand (s : State) : State :=
  match encodeRequest s with
  | .ok f => complete ⟨.ok, 0⟩ (loadFrame f s)
  | .error r => complete r (loadFrame [] s)

/-- Does DECODE set EXP_LEN to 3 + L: "header, length-plausibility and oversize checks passed" (R117). -/
def declaresLength : Except Raised Nat → Bool
  | .ok _ => true
  | .error r => r = ⟨.malformedResponse, 4⟩ ∨ r = ⟨.checksumMismatch, 0⟩

/-- What DECODE raises for a result of DecodeFrame (R117). -/
def raisedBy : Except Raised Nat → Raised
  | .ok _ => ⟨.ok, 0⟩
  | .error r => r

/-- DECODE after its accepted start (R117). -/
def decodeCommand (s : State) : State :=
  if Config.maxFrame < s.rxcnt.toNat then
    complete ⟨.invalidRequest, 3⟩ { s with expLen := 0 }
  else
    let r := decodeFrame s.rxbuf s.rxcnt.toNat
    complete (raisedBy r)
      { s with expLen := if declaresLength r then BitVec.ofNat 8 (3 + (byteAt s.rxbuf 3).toNat) else 0 }

/-- A TRANSACT expects a reply exactly when W = 1 and REQ_ID is not the broadcast id (R141). -/
def expectsReply (want : Bool) (s : State) : Bool := want && s.reqId != Config.broadcastId

/-- TRANSACT after its accepted start (R140): the session is initialised, the request encoded; on success the
engine starts in SENDING, on failure the command completes with no transport call. -/
def transactCommand (want : Bool) (s : State) : State :=
  match encodeRequest s with
  | .error r => complete r (sessionInit s)
  | .ok f =>
    { loadFrame f (sessionInit s) with
      status := statusOnTransact (expectsReply want s) s.status
      fsm := .sending }

/-- `ctrl_write(v)` (R182 to R184): OP in bits [1:0], W in bit 2, the other bits ignored (R81, R92). -/
def ctrlWrite (v : Byte) (s : State) : State :=
  match (v.extractLsb' 0 2).toNat with
  | 0 => s
  | 1 => guardedStart encodeCommand s
  | 2 => guardedStart decodeCommand s
  | _ => guardedStart (transactCommand (v.getLsbD 2)) s

/-- The meaning of `CTRL.NOP` (R182): no effect in any state. -/
def execCtrlNop (s : State) : Host.Outcome State Fault Refusal := .next s

/-- The meaning of `CTRL.ENCODE` (R116, R183, R184). -/
def execCtrlEncode (s : State) : Host.Outcome State Fault Refusal := .next (guardedStart encodeCommand s)

/-- The meaning of `CTRL.DECODE` (R117, R183, R184). -/
def execCtrlDecode (s : State) : Host.Outcome State Fault Refusal := .next (guardedStart decodeCommand s)

/-- The meaning of `CTRL.TRANSACT` (R140, R183, R184); the engine's steps are in Machine/Engine.lean. -/
def execCtrlTransact (want : Bool) (s : State) : Host.Outcome State Fault Refusal :=
  .next (guardedStart (transactCommand want) s)

end Sys2Proof.Machine
end

