-- ==== Sys2Proof/Machine/RegisterAccess.lean ====
section
/-! DEFINITION. The two access instructions, REG_READ and REG_WRITE (spec/42_host_access.md R180, R181, R185 to R188). -/

namespace Sys2Proof.Machine

/-- A host write that is taken only while BUSY = 0 (R186). -/
def whenIdle (write : State → State) (s : State) : State := if s.status.busy then s else write s

/-- `RegWrite(off, v)` by register (R181): a read-only register and a reserved offset ignore the write (R185, R188),
RXCNT and RXBUF take it only while BUSY = 0 (R186), the request registers at any time (R187). -/
def writeReg (v : Byte) (s : State) : Reg → State
  | .ctrl => ctrlWrite v s
  | .status => s
  | .result => s
  | .fsmState => s
  | .reqId => { s with reqId := v }
  | .reqCmd => { s with reqCmd := v }
  | .reqNparam => { s with reqNparam := v }
  | .txlen => s
  | .rxcnt => whenIdle (fun s => { s with rxcnt := v }) s
  | .echoRem => s
  | .expLen => s
  | .reserved => s
  | .reqParam i => { s with reqParam := s.reqParam.set i v }
  | .txbuf _ => s
  | .rxbuf i => whenIdle (fun s => { s with rxbuf := s.rxbuf.set i v }) s

/-- The meaning of `REG_WRITE` (R181). With OFF = 0x00, a form no encoding has, it is the CTRL write that R181's
own case lists (DEDUCED, notes entry 22). -/
def execRegWrite (off : Offset) (data : Byte) (s : State) : Host.Outcome State Fault Refusal :=
  .next (writeReg data s (regAt off))

/-- The meaning of `REG_READ` (R180): a byte to the host, and no other effect (R55). -/
def execRegRead (off : Offset) (s : State) : Host.Outcome State Fault Refusal :=
  .next (returnToHost (regRead s off) s)

end Sys2Proof.Machine
end

