-- ==== Sys2Proof/Machine/Dispatch.lean ====
section
/-! DEFINITION. The meaning of each instruction, one arm per constructor. -/

namespace Sys2Proof.Machine

def exec (i : Instr) (s : State) : Host.Outcome State Fault Refusal :=
  match i with
  | .ctrlNop => Sys2Proof.Machine.execCtrlNop s
  | .ctrlEncode => Sys2Proof.Machine.execCtrlEncode s
  | .ctrlDecode => Sys2Proof.Machine.execCtrlDecode s
  | .ctrlTransact wantReply => Sys2Proof.Machine.execCtrlTransact wantReply s
  | .regWrite off data => Sys2Proof.Machine.execRegWrite off data s
  | .regRead off => Sys2Proof.Machine.execRegRead off s

end Sys2Proof.Machine
end

