-- ==== Sys2Proof/Machine/Engine.lean ====
section
/-! DEFINITION. The transaction engine: one atomic step for each phase of a TRANSACT in flight (spec/41_transaction.md
R143 to R160). The timing parameters are an argument (R8), and so is the transport's answer (R63 to R65). -/

namespace Sys2Proof.Machine

/-- The entry to DISCARDING_ECHO (R146). -/
def startEcho (s : State) : State := { s with echoRem := s.txlen, fsm := .discardingEcho }

/-- SENDING (R144 to R146): discard the pending input, write the frame, and complete or go on to the echo. -/
def sendingStep (a : Answer) (s : State) : Host.Outcome State Fault Refusal :=
  if Config.maxFrame < s.txlen.toNat then .fault .frameOverrun
  else
    match transportWrite a (s.txbuf.toList.take s.txlen.toNat) (transportDiscard s) with
    | (none, s) => .next (complete ⟨.transportFailure, 1⟩ s)
    | (some c, s) =>
      if c ≠ s.txlen.toNat then .next (complete ⟨.transportFailure, 2⟩ s)
      else if s.status.replyExp then .next (startEcho s)
      else .next (complete ⟨.ok, 0⟩ s)

/-- `k` echo bytes have been dropped, without comparison: only their count is read (R147, R148). -/
def countEcho (k : Nat) (s : State) : State := { s with echoRem := BitVec.ofNat 8 (s.echoRem.toNat - k) }

/-- Ending the echo phase arms the header deadline, once (R149). -/
def endEcho (t : Timing) (s : State) : State :=
  { s with deadline := s.now + t.header, fsm := .awaitingHeader }

/-- After `k` echo bytes were read: "if reg[ECHO_REM] = 0 or k = 0: end the echo phase" (R147). -/
def afterEchoRead (t : Timing) (k : Nat) (s : State) : State :=
  if s.echoRem = 0 ∨ k = 0 then endEcho t s else s

/-- DISCARDING_ECHO (R147). -/
def echoStep (t : Timing) (a : Answer) (s : State) : Host.Outcome State Fault Refusal :=
  if s.echoRem = 0 then .fault .emptyRead
  else
    match transportRead a s.echoRem.toNat s with
    | (none, s) => .next (complete ⟨.transportFailure, 3⟩ s)
    | (some bytes, s) => .next (afterEchoRead t bytes.length (countEcho bytes.length s))

/-- The entry to AWAITING_BODY, with the length that the header declares (R155). -/
def startBody (t : Timing) (s : State) : State :=
  { s with expLen := BitVec.ofNat 8 (3 + (byteAt s.rxbuf 3).toNat), deadline := s.now + t.body, fsm := .awaitingBody }

/-- The length checks at header completion (R154, R155). -/
def headerComplete (t : Timing) (s : State) : State :=
  if implausible (byteAt s.rxbuf 3) then complete ⟨.malformedResponse, 3⟩ s
  else if oversize (byteAt s.rxbuf 3) then complete ⟨.oversizeResponse, 0⟩ s
  else startBody t s

/-- After a header read and its resync: header completion wins over the deadline (R150, R153, R156). -/
def afterHeaderRead (t : Timing) (s : State) : State :=
  if s.rxcnt.toNat = Config.hdrBytes then headerComplete t s
  else if deadlinePassed s then complete ⟨.timeoutAwaitingHeader, 0⟩ s
  else s

/-- AWAITING_HEADER (R150). -/
def headerStep (t : Timing) (a : Answer) (s : State) : Host.Outcome State Fault Refusal :=
  if Config.hdrBytes ≤ s.rxcnt.toNat then .fault .emptyRead
  else
    match transportRead a (Config.hdrBytes - s.rxcnt.toNat) s with
    | (none, s) => .next (complete ⟨.transportFailure, 4⟩ s)
    | (some bytes, s) => .next (afterHeaderRead t (resync (appendRx bytes s)))

/-- The final decode (R158). -/
def finalDecode (s : State) : Host.Outcome State Fault Refusal :=
  match decodeFrame s.rxbuf s.rxcnt.toNat with
  | .ok _ => .next (complete ⟨.ok, 0⟩ s)
  | .error r =>
    if r = ⟨.checksumMismatch, 0⟩ then .next (complete ⟨.checksumMismatch, 0⟩ s) else .fault .impossibleDecode

/-- After a body read: body completion wins over the deadline (R157, R159). -/
def afterBodyRead (s : State) : Host.Outcome State Fault Refusal :=
  if s.rxcnt = s.expLen then finalDecode s
  else if deadlinePassed s then .next (complete ⟨.timeoutReadingBody, 0⟩ s)
  else .next s

/-- AWAITING_BODY (R157): no resynchronisation in this phase. -/
def bodyStep (a : Answer) (s : State) : Host.Outcome State Fault Refusal :=
  if s.expLen.toNat ≤ s.rxcnt.toNat then .fault .emptyRead
  else
    match transportRead a (s.expLen.toNat - s.rxcnt.toNat) s with
    | (none, s) => .next (complete ⟨.transportFailure, 5⟩ s)
    | (some bytes, s) =>
      if Config.maxFrame < s.rxcnt.toNat + bytes.length then .fault .bufferOverrun
      else afterBodyRead (appendRx bytes s)

/-- The engine's step (R143): exactly when BUSY = 1, chosen by FSM_STATE. An engine turn while BUSY = 0 is no step
and changes nothing (notes entry 11). -/
def engineStep (t : Timing) (a : Answer) (s : State) : Host.Outcome State Fault Refusal :=
  if s.status.busy then
    match s.fsm with
    | .idle => .fault .noEngineStep
    | .sending => sendingStep a s
    | .discardingEcho => echoStep t a s
    | .awaitingHeader => headerStep t a s
    | .awaitingBody => bodyStep a s
  else .next s

end Sys2Proof.Machine
end

