-- ==== Sys2Proof/Machine/Agents.lean ====
section
/-! DEFINITION. The agents and their interleaving: which agent steps next, and what its atomic step does
(spec/00_scope.md R5, R6; spec/20_memory.md R57, R61). -/

namespace Sys2Proof.Machine

/-- The next agent step, and the state with that step taken off: the first of those written out in the state, or,
where none is written out, a free draw (R6, R9; notes entry 1). -/
def nextEvent (s : State) : Event × State :=
  match s.upcoming with
  | e :: rest => (e, { s with upcoming := rest })
  | [] => (Config.freeEvent s.draws, { s with draws := s.draws + 1 })

/-- The host's access: the decoded instruction's meaning (R93). -/
def hostStep (w : AccessWord) (s : State) : Host.Outcome State Fault Refusal :=
  match decode w with
  | .ok i => exec i s
  | .error _ => .refused .noTableRow

/-- One atomic step of one agent (R5, R6). -/
def perform (t : Timing) (e : Event) (s : State) : Host.Outcome State Fault Refusal :=
  match e with
  | .access w => hostStep w s
  | .engine a => engineStep t a s
  | .arrive b => .next (arrive b s)
  | .tick => .next (tick s)
  | .reset => .next (platformReset s)

/-- An interleaving of agent steps, stopping at the first fault or refusal (R6). -/
def performAll (t : Timing) : List Event → State → Host.Outcome State Fault Refusal
  | [], s => .next s
  | e :: es, s =>
    match perform t e s with
    | .next s' => performAll t es s'
    | .fault r => .fault r
    | .refused r => .refused r

/-- The next agent step is this host access; a number that is no access word places nothing. -/
def placeAccess (n : Nat) (s : State) : State :=
  if n < 2 ^ 15 then { s with upcoming := .access (BitVec.ofNat 15 n) :: s.upcoming } else s

end Sys2Proof.Machine
end

