-- ==== Sys2Proof/Machine/Step.lean ====
section
/-! DEFINITION. One step of the machine: the next agent's atomic step (spec/00_scope.md R5, R6). -/

namespace Sys2Proof.Machine

/-- One step: take the next agent step off and perform it. -/
def step (s : State) : Host.Outcome State Fault Refusal :=
  perform Config.timing (nextEvent s).1 (nextEvent s).2

/-- The state whose very next step is the host access spelled by the first `nbits` bits of `w` (notes entry 13). -/
def State.withFetchWord (s : State) (nbits w : Nat) : State := placeAccess (w % 2 ^ nbits) s

end Sys2Proof.Machine
end

