-- ==== Sys2Proof/Machine/Payload.lean ====
section
/-! DEFINITION. HOST SOFTWARE, not the transceiver (spec/00_scope.md R3): the Command Catalog's payload formats
(spec/45_payload_formats.md R200 to R210) and the angle conversion in binary64 (spec/46_host_operations.md R221). -/

namespace Sys2Proof.Machine

/-! ### Field encodings -/

/-- A 16-bit field, the less significant byte at the lower parameter index (R200, R201). -/
def u16le (v : Word16) : List Byte := [v.extractLsb' 0 8, v.extractLsb' 8 8]

/-- Decoding a 16-bit field: `v = p[j] + 256 · p[j+1]` (R200). -/
def u16ofLe (lo hi : Byte) : Word16 := BitVec.ofNat 16 (lo.toNat + 256 * hi.toNat)

/-- An i16 field: `u = s mod 65536`, encoded as a u16 (R202); `s` is from −32768 to 32767. -/
def i16le (s : Int) : List Byte := u16le (BitVec.ofInt 16 s)

/-- Decoding an i16 field: `s = u` if u < 32768, otherwise `s = u − 65536` (R202). -/
def i16ofLe (lo hi : Byte) : Int :=
  let u := (u16ofLe lo hi).toNat
  if u < 32768 then (u : Int) else (u : Int) - 65536

/-! ### The layouts the source gives -/

/-- Move-with-time: position, then time in ms (R203). -/
def moveTimePayload (position time : Word16) : List Byte := u16le position ++ u16le time

/-- Torque load/unload: 1 enabled, 0 disabled (R205). -/
def torquePayload (enabled : Bool) : List Byte := [if enabled then 0x01 else 0x00]

/-- Angle limits write: min, then max, in position units (R206). -/
def angleLimitsPayload (min max : Word16) : List Byte := u16le min ++ u16le max

/-- Mode write: the mode flag, a reserved zero byte, the speed, which is an i16 (R207, R220): the 16 bits of a
two's-complement value, −32768 to 32767, and nothing wider. -/
def modePayload (continuousRotation : Bool) (speed : Word16) : List Byte :=
  [if continuousRotation then 0x01 else 0x00, 0x00] ++ i16le speed.toInt

/-! ### The command table (R208) -/

/-- The commands of the source's set, one for each row of the table of R208. -/
inductive ServoCommand
  | moveTimeWrite
  | moveStop
  | idWrite
  | idRead
  | angleOffsetAdjust
  | angleOffsetWrite
  | angleOffsetRead
  | angleLimitWrite
  | angleLimitRead
  | vinLimitWrite
  | vinLimitRead
  | tempLimitWrite
  | tempLimitRead
  | tempRead
  | vinRead
  | posRead
  | motorModeWrite
  | motorModeRead
  | loadOrUnloadWrite
  | loadOrUnloadRead
deriving DecidableEq, Repr

/-- A parameter count of the table: a number, or "not in source", of which a model must invent none (R209). -/
inductive ParamCount
  | fixed (n : Nat)
  | notInSource
deriving DecidableEq, Repr

/-- A row of the table of R208 but for its code: "this mapping is static configuration, not mutable state". -/
structure CommandShape where
  /-- N of the request. -/
  request : ParamCount
  /-- W (R210): true exactly for the read commands. -/
  wantReply : Bool
  /-- N of the reply; none where the table has "-", for a command without one. -/
  reply : Option ParamCount
deriving DecidableEq, Repr

/-- A write-only command that takes these parameters (R208, R210). -/
def writeShape (request : ParamCount) : CommandShape := ⟨request, false, none⟩

/-- A read command: no parameter (D42), a reply wanted (R210), and this many parameters in the reply (R208). -/
def readShape (reply : ParamCount) : CommandShape := ⟨.fixed 0, true, some reply⟩

/-- The columns N, W and reply N of the table of R208. -/
def commandShape : ServoCommand → CommandShape
  | .moveTimeWrite => writeShape (.fixed 4)
  | .moveStop => writeShape (.fixed 0)
  | .idWrite => writeShape .notInSource
  | .idRead => readShape .notInSource
  | .angleOffsetAdjust => writeShape .notInSource
  | .angleOffsetWrite => writeShape (.fixed 0)
  | .angleOffsetRead => readShape .notInSource
  | .angleLimitWrite => writeShape (.fixed 4)
  | .angleLimitRead => readShape .notInSource
  | .vinLimitWrite => writeShape .notInSource
  | .vinLimitRead => readShape .notInSource
  | .tempLimitWrite => writeShape .notInSource
  | .tempLimitRead => readShape .notInSource
  | .tempRead => readShape .notInSource
  | .vinRead => readShape .notInSource
  | .posRead => readShape (.fixed 2)
  | .motorModeWrite => writeShape (.fixed 4)
  | .motorModeRead => readShape .notInSource
  | .loadOrUnloadWrite => writeShape (.fixed 1)
  | .loadOrUnloadRead => readShape .notInSource

/-- The code column of the table of R208: the parameter `CMD_*` of each command. -/
def commandCode (codes : CommandCodes) : ServoCommand → Byte
  | .moveTimeWrite => codes.moveTimeWrite
  | .moveStop => codes.moveStop
  | .idWrite => codes.idWrite
  | .idRead => codes.idRead
  | .angleOffsetAdjust => codes.angleOffsetAdjust
  | .angleOffsetWrite => codes.angleOffsetWrite
  | .angleOffsetRead => codes.angleOffsetRead
  | .angleLimitWrite => codes.angleLimitWrite
  | .angleLimitRead => codes.angleLimitRead
  | .vinLimitWrite => codes.vinLimitWrite
  | .vinLimitRead => codes.vinLimitRead
  | .tempLimitWrite => codes.tempLimitWrite
  | .tempLimitRead => codes.tempLimitRead
  | .tempRead => codes.tempRead
  | .vinRead => codes.vinRead
  | .posRead => codes.posRead
  | .motorModeWrite => codes.motorModeWrite
  | .motorModeRead => codes.motorModeRead
  | .loadOrUnloadWrite => codes.loadOrUnloadWrite
  | .loadOrUnloadRead => codes.loadOrUnloadRead

/-- Does a parameter count agree with the table: it is the table's number, or, where the table has none, what the host
supplies, 0 to 10 (R209). -/
def fitsCount (n : Nat) : ParamCount → Bool
  | .fixed k => n == k
  | .notInSource => n ≤ Config.maxParams

/-- The request parameters of a command have the table's shape (R208). -/
def fitsRequest (c : ServoCommand) (params : List Byte) : Bool := fitsCount params.length (commandShape c).request

/-- A reply with `n` parameters has the table's shape (R208, R225); a write-only command has no reply. -/
def fitsReply (c : ServoCommand) (n : Nat) : Bool :=
  match (commandShape c).reply with
  | some count => fitsCount n count
  | none => false

/-! ### Angles

A finite binary64 number is a sign and a natural number of units of 2^-1074, the least subnormal, so its arithmetic
is exact arithmetic on naturals and one rounding. -/

/-- The number of units of 2^-1074 in the number 1. -/
def oneUnits : Nat := 2 ^ 1074

/-- A binary64 bit pattern, read. -/
structure Real64 where
  negative : Bool
  units : Nat
deriving DecidableEq, Repr

/-- The finite number a binary64 bit pattern stands for; `none` for NaN and ±∞, which R221 refuses. -/
def finite64 (bits : BitVec 64) : Option Real64 :=
  let e := (bits.extractLsb' 52 11).toNat
  let m := (bits.extractLsb' 0 52).toNat
  if e = 2047 then none
  else if e = 0 then some ⟨bits.getLsbD 63, m⟩
  else some ⟨bits.getLsbD 63, (2 ^ 52 + m) * 2 ^ (e - 1)⟩

/-- `num / den` units rounded to binary64, to nearest, ties to even (R221): a value of q units or more, below q + 1,
is a multiple of 2^(log2 q − 52) units. A value past the largest finite one stays a natural number here, where
binary64 has +∞: every use below clamps either to the same position (notes entry 16). -/
def roundUnits (num den : Nat) : Nat :=
  let ulp := 2 ^ (Nat.log2 (num / den) - 52)
  let q := num / (den * ulp)
  let r := num % (den * ulp)
  let up := den * ulp < 2 * r ∨ (2 * r = den * ulp ∧ q % 2 = 1)
  (if up then q + 1 else q) * ulp

/-- An exact number of units rounded to an integer, ties away from zero (R221); the sign is applied by the caller. -/
def roundHalfAway (units : Nat) : Nat := (2 * units + oneUnits) / (2 * oneUnits)

/-- `clamp(r, 0, 1000)` (R221). -/
def clampPosition (r : Int) : Word16 := BitVec.ofInt 16 (min (max r 0) 1000)

/-- `POS(a)` (R221): `(a / 240.0) * 1000.0`, each operation rounded, then rounded to an integer and clamped; `none`
where it refuses. -/
def pos (angle : BitVec 64) : Option Word16 :=
  (finite64 angle).map fun x =>
    let quotient := roundUnits x.units 240
    let product := roundUnits (quotient * 1000) 1
    let r := roundHalfAway product
    clampPosition (if x.negative then -(r : Int) else (r : Int))

end Sys2Proof.Machine
end

