-- ==== Sys2Proof/Machine/HostProgram.lean ====
section
/-! DEFINITION. HOST SOFTWARE, not the transceiver (spec/00_scope.md R3; notes entry 17): host programs over the two accesses RD and
WR, the pseudo-instructions and their expansions (spec/30_encoding.md R94, R95), and how a host program's next access
meets the machine (spec/20_memory.md R57). -/

namespace Sys2Proof.Machine

/-- A host program: accesses, with host variables as Lean variables (R94), ending in a value. `wait` is the one
loop of the pseudo-instructions: `loop RD STATUS -> $s until $s[0] = 0`, then on with `$s` (R95). -/
inductive HostProgram (α : Type)
  | done (result : α)
  | rd (off : Offset) (next : Byte → HostProgram α)
  | wr (off : Offset) (value : Byte) (next : HostProgram α)
  | wait (next : Byte → HostProgram α)

/-- The access a program makes next, as its word (R93). -/
def nextAccess {α : Type} : HostProgram α → Option AccessWord
  | .done _ => none
  | .rd off _ => some (accessWord false off 0)
  | .wr off value _ => some (accessWord true off value)
  | .wait _ => some (accessWord false (offsetOf .status) 0)

/-- The program after its next access, given the byte that a read returned. -/
def afterAccess {α : Type} (returned : Byte) : HostProgram α → HostProgram α
  | .done r => .done r
  | .rd _ next => next returned
  | .wr _ _ next => next
  | .wait next => if returned.getLsbD 0 then .wait next else next returned

/-- One turn of a host that runs a program: its next access as one atomic step (R6, R57). -/
def hostTurn {α : Type} (p : HostProgram α) (s : State) : Host.Outcome (HostProgram α × State) Fault Refusal :=
  match nextAccess p with
  | none => .next (p, s)
  | some w =>
    match hostStep w s with
    | .next s' => .next (afterAccess (s'.hostReads.getLastD 0) p, s')
    | .fault r => .fault r
    | .refused r => .refused r

/-- The first `k` turns of a host program, with no step of another agent in between (R57). -/
def hostTurns {α : Type} : Nat → HostProgram α → State → Host.Outcome (HostProgram α × State) Fault Refusal
  | 0, p, s => .next (p, s)
  | k + 1, p, s =>
    match hostTurn p s with
    | .next (p', s') => hostTurns k p' s'
    | .fault r => .fault r
    | .refused r => .refused r

/-! ### Pseudo-instructions (R95) -/

/-- `NOP`: `WR CTRL, 0x00`. -/
def pseudoNop {α : Type} (next : HostProgram α) : HostProgram α := .wr (offsetOf .ctrl) 0x00 next
/-- `START.ENCODE`: `WR CTRL, 0x01`. -/
def startEncode {α : Type} (next : HostProgram α) : HostProgram α := .wr (offsetOf .ctrl) 0x01 next
/-- `START.DECODE`: `WR CTRL, 0x02`. -/
def startDecode {α : Type} (next : HostProgram α) : HostProgram α := .wr (offsetOf .ctrl) 0x02 next
/-- `START.TRANSACT`: `WR CTRL, 0x03`, no reply wanted. -/
def startTransact {α : Type} (next : HostProgram α) : HostProgram α := .wr (offsetOf .ctrl) 0x03 next
/-- `START.TRANSACT.R`: `WR CTRL, 0x07`, a reply wanted. -/
def startTransactReply {α : Type} (next : HostProgram α) : HostProgram α := .wr (offsetOf .ctrl) 0x07 next
/-- `GETRESULT -> $r`: `RD RESULT -> $r`. -/
def getResult {α : Type} (next : Byte → HostProgram α) : HostProgram α := .rd (offsetOf .result) next

/-- `WR` of consecutive bytes at consecutive offsets, from `off` on. -/
def writeFrom {α : Type} (off : Nat) : List Byte → HostProgram α → HostProgram α
  | [], next => next
  | b :: bs, next => .wr (BitVec.ofNat 6 off) b (writeFrom (off + 1) bs next)

/-- `LOADREQ id, cmd, [p0, ..., pn−1]`; n is at most 10 (R84). -/
def loadReq {α : Type} (id cmd : Byte) (params : List Byte) (next : HostProgram α) : HostProgram α :=
  .wr (offsetOf .reqId) id <|
  .wr (offsetOf .reqCmd) cmd <|
  .wr (offsetOf .reqNparam) (BitVec.ofNat 8 params.length) <|
  writeFrom 0x10 params next

/-- `LOADRX [b0, ..., bk−1]`; k is at most 16 (R32). -/
def loadRx {α : Type} (bytes : List Byte) (next : HostProgram α) : HostProgram α :=
  writeFrom 0x30 bytes (.wr (offsetOf .rxcnt) (BitVec.ofNat 8 bytes.length) next)

/-- The copy loop of `COPYTX`: `RD TXBUF[i] -> $b`, `WR RXBUF[i], $b`, for `todo` entries from i on. -/
def copyFrom {α : Type} (i : Nat) : Nat → HostProgram α → HostProgram α
  | 0, next => next
  | todo + 1, next =>
    .rd (BitVec.ofNat 6 (0x20 + i)) fun b => .wr (BitVec.ofNat 6 (0x30 + i)) b (copyFrom (i + 1) todo next)

/-- `COPYTX`. TXLEN is never above 16 (R31), and the buffers have no more entries to copy (notes entry 21). -/
def copyTx {α : Type} (next : HostProgram α) : HostProgram α :=
  .rd (offsetOf .txlen) fun n =>
    copyFrom 0 (min n.toNat Config.maxFrame) (.wr (offsetOf .rxcnt) n next)

end Sys2Proof.Machine
end

