-- ==== Sys2Proof/Machine/BusController.lean ====
section
/-! DEFINITION. HOST SOFTWARE, not the transceiver (spec/00_scope.md R3): the Bus Controller's operations as host
programs (spec/46_host_operations.md R220 to R230). The command codes are an argument (R208). -/

namespace Sys2Proof.Machine

/-- What a host operation returns: a result name, which is a CODE name, or a domain value, only with OK (R220). -/
inductive HostResult
  | named (code : Code)
  /-- The RESULT codes 8 to 15 have no name; the transceiver never produces one (R251). -/
  | unnamed (bits : BitVec 4)
  | position (units : Word16)
deriving DecidableEq, Repr

/-- `ISSUE(id, cmd, [p0 .. pn−1], W)` (R230), going on with the RESULT byte. -/
def issue {α : Type} (id cmd : Byte) (params : List Byte) (want : Bool) (next : Byte → HostProgram α) : HostProgram α :=
  .wait fun _ =>
    loadReq id cmd params <|
    .wr (offsetOf .ctrl) (ctrlByte 3 want) <|
    .wait fun _ => getResult next

/-- The name of `$r[3:0]` (R230). -/
def nameOf (r : Byte) : HostResult :=
  match codeOfResult r with
  | some c => .named c
  | none => .unnamed (r.extractLsb' 0 4)

/-- One command of the table of R208 through ISSUE, with the table's code and W (R210), going on with the RESULT byte. The
host supplies the parameters: their number is the table's, or its own where the table has none (R209). -/
def issueCommand {α : Type} (codes : CommandCodes) (id : Byte) (c : ServoCommand) (params : List Byte)
    (next : Byte → HostProgram α) : HostProgram α :=
  issue id (commandCode codes c) params (commandShape c).wantReply next

/-- An operation that issues one command and returns the name of its result (R223, R226 to R229). -/
def issueAndName (codes : CommandCodes) (id : Byte) (c : ServoCommand) (params : List Byte) : HostProgram HostResult :=
  issueCommand codes id c params fun r => .done (nameOf r)

/-- `move_to_position(id, position_units, time_ms)`: no clamp (R223). -/
def moveToPosition (codes : CommandCodes) (id : Byte) (position time : Word16) : HostProgram HostResult :=
  issueAndName codes id .moveTimeWrite (moveTimePayload position time)

/-- `move_to_angle(id, angle_degrees, time_ms)` (R222). -/
def moveToAngle (codes : CommandCodes) (id : Byte) (angle : BitVec 64) (time : Word16) : HostProgram HostResult :=
  match pos angle with
  | none => .done (.named .invalidRequest)
  | some p => moveToPosition codes id p time

/-- `decode_position_reply()` (R225): the reply shape is 2 bytes; neither id, command nor range is checked. -/
def decodePositionReply : HostProgram HostResult :=
  .rd (offsetOf (.rxbuf 3)) fun l =>
    if (l.toNat : Int) - 3 ≠ 2 then .done (.named .malformedResponse)
    else
      .rd (offsetOf (.rxbuf 5)) fun lo =>
        .rd (offsetOf (.rxbuf 6)) fun hi => .done (.position (u16ofLe lo hi))

/-- `read_position(id)` (R224): the broadcast id is refused with no register access at all. -/
def readPosition (codes : CommandCodes) (id : Byte) : HostProgram HostResult :=
  if id = Config.broadcastId then .done (.named .invalidRequest)
  else
    issueCommand codes id .posRead [] fun r =>
      if nameOf r = .named .ok then decodePositionReply else .done (nameOf r)

/-- `set_torque(id, enabled)` (R226). -/
def setTorque (codes : CommandCodes) (id : Byte) (enabled : Bool) : HostProgram HostResult :=
  issueAndName codes id .loadOrUnloadWrite (torquePayload enabled)

/-- `set_angle_limits(id, min_degrees, max_degrees)`: each clamped, then swapped if min > max (R227). -/
def setAngleLimits (codes : CommandCodes) (id : Byte) (minDegrees maxDegrees : BitVec 64) : HostProgram HostResult :=
  match pos minDegrees, pos maxDegrees with
  | some lo, some hi =>
    if hi.toNat < lo.toNat then issueAndName codes id .angleLimitWrite (angleLimitsPayload hi lo)
    else issueAndName codes id .angleLimitWrite (angleLimitsPayload lo hi)
  | _, _ => .done (.named .invalidRequest)

/-- `set_mode(id, continuous_rotation, speed)`: the speed is an i16, in two's complement, and is not
clamped (R220, R228). -/
def setMode (codes : CommandCodes) (id : Byte) (continuousRotation : Bool) (speed : Word16) : HostProgram HostResult :=
  issueAndName codes id .motorModeWrite (modePayload continuousRotation speed)

end Sys2Proof.Machine
end

