-- ==== Sys2Proof/Safety.lean ====
section
/-! DEFINITION. What holds of every state of the transceiver, and the terms the statements speak in (spec/10_state.md
R23 to R35; spec/41_transaction.md section 7; spec/60_exceptions.md R252, R253). -/

namespace Sys2Proof.Machine

/-- The RESULT values of R252: every (CODE, DETAIL) pair that is ever produced. -/
def legalResults : List Byte :=
  [0x00, 0x11, 0x21, 0x31, 0x41, 0x51, 0x02, 0x03, 0x04, 0x15, 0x25, 0x35, 0x45, 0x06, 0x17, 0x27, 0x37]

/-- What a completed engine can have raised (R253, the row TRANSACT, without the two outcomes of its start). -/
def engineResults : List Byte := [0x00, 0x11, 0x21, 0x31, 0x41, 0x51, 0x02, 0x03, 0x35, 0x06, 0x04]

/-- STATE = IDLE exactly when BUSY = 0 (R24); DONE = 0 in flight (R23); RESULT = 0x00 while DONE = 0 (R180, R184),
and otherwise a value of R252. -/
abbrev StatusInv (s : State) : Prop :=
  (s.status.busy = true ↔ s.fsm ≠ .idle) ∧ (s.status.busy = true → s.status.done = false) ∧
  (s.status.done = false → s.result = 0) ∧ s.result ∈ legalResults

/-- TXLEN is 0 or 6 to 16 (R31), and TXBUF is 0x00 from TXLEN on (R30). -/
abbrev TxInv (s : State) : Prop :=
  (s.txlen = 0 ∨ (6 ≤ s.txlen.toNat ∧ s.txlen.toNat ≤ 16)) ∧
  ∀ j : Fin 16, s.txlen.toNat ≤ j.val → s.txbuf[j] = 0

/-- While a TRANSACT is in flight there is a frame in TXBUF, and RXBUF is 0x00 from RXCNT on (R32). -/
abbrev FlightInv (s : State) : Prop :=
  s.status.busy = true →
    6 ≤ s.txlen.toNat ∧ ∀ j : Fin 16, s.rxcnt.toNat ≤ j.val → s.rxbuf[j] = 0

/-- In SENDING the session is as session_init left it (R142). -/
abbrev SendingInv (s : State) : Prop :=
  s.fsm = .sending → s.rxcnt = 0 ∧ s.echoRem = 0 ∧ s.expLen = 0 ∧ s.deadline = 0

/-- In DISCARDING_ECHO there is an echo byte to discard (R147) and nothing has been received. -/
abbrev EchoInv (s : State) : Prop :=
  s.fsm = .discardingEcho →
    s.status.replyExp = true ∧ 1 ≤ s.echoRem.toNat ∧ s.echoRem.toNat ≤ s.txlen.toNat ∧
    s.rxcnt = 0 ∧ s.expLen = 0 ∧ s.deadline = 0

/-- In AWAITING_HEADER, 0 ≤ RXCNT ≤ 3, and the deadline was armed no later than now (R149, R150). -/
abbrev HeaderInv (t : Timing) (s : State) : Prop :=
  s.fsm = .awaitingHeader →
    s.status.replyExp = true ∧ s.rxcnt.toNat ≤ 3 ∧ s.expLen = 0 ∧ s.deadline ≤ s.now + t.header

/-- In AWAITING_BODY, 4 ≤ RXCNT < EXP_LEN ≤ 16, the header stands in front, EXP_LEN is the length it declares, and
the deadline was armed no later than now (R153 to R155, R157). -/
abbrev BodyInv (t : Timing) (s : State) : Prop :=
  s.fsm = .awaitingBody →
    s.status.replyExp = true ∧ 4 ≤ s.rxcnt.toNat ∧ s.rxcnt.toNat < s.expLen.toNat ∧ s.expLen.toNat ≤ 16 ∧
    hdrOk s.rxbuf[0] s.rxbuf[1] = true ∧ s.expLen.toNat = 3 + s.rxbuf[3].toNat ∧ 3 ≤ s.rxbuf[3].toNat ∧
    s.deadline ≤ s.now + t.body

/-- The invariant of the transceiver: the invariants of spec/10_state.md and of spec/41_transaction.md section 7. -/
abbrev TransceiverInv (t : Timing) (s : State) : Prop :=
  StatusInv s ∧ TxInv s ∧ FlightInv s ∧ SendingInv s ∧ EchoInv s ∧ HeaderInv t s ∧ BodyInv t s

/-- TXBUF holds a whole frame that DecodeFrame accepts, or nothing at all (R30, R31, R67). -/
abbrev TxHoldsFrame (s : State) : Prop :=
  (s.txlen = 0 ∧ s.txbuf = zeroBuf) ∨ decodeFrame s.txbuf s.txlen.toNat = .ok s.txlen.toNat

/-- A safe machine never stops: the transceiver has no fault and refuses no access (R188, R250). -/
abbrev Runs (o : Host.Outcome State Fault Refusal) : Prop := ∃ s, o = .next s

/-- The received bytes not yet used: those in RXBUF, then those in `rxq` (R61, R151). -/
def received (s : State) : List Byte := s.rxbuf.toList.take s.rxcnt.toNat ++ s.rxq

/-- `0x55 0x55` stands at position `p` of a byte stream (R111). -/
abbrev HeaderAt (q : List Byte) (p : Nat) : Prop :=
  q[p]? = some Config.hdr0 ∧ q[p + 1]? = some Config.hdr1

/-- The events of the engine, the line and the clock: neither a host access nor a reset. -/
def isInner : Event → Bool
  | .access _ => false
  | .engine _ => true
  | .arrive _ => true
  | .tick => true
  | .reset => false

/-- The events that are an engine turn. -/
def isEngine : Event → Bool
  | .engine _ => true
  | _ => false

/-- A host access that starts a command if BUSY = 0: a CTRL write with OP ≠ 0 (R184). -/
abbrev StartsCommand (w : AccessWord) : Prop :=
  decode w = .ok .ctrlEncode ∨ decode w = .ok .ctrlDecode ∨ ∃ want, decode w = .ok (.ctrlTransact want)

/-- A host write at RXCNT or at one of RXBUF[0..15] (R186). -/
abbrev WritesReceive (w : AccessWord) : Prop :=
  ∃ off data, decode w = .ok (.regWrite off data) ∧ (off.toNat = 0x08 ∨ 0x30 ≤ off.toNat)

/-- A request register: REQ_ID, REQ_CMD, REQ_NPARAM or REQ_PARAM[0..9] (R20, R187). -/
abbrev IsRequestOffset (off : Offset) : Prop :=
  (0x04 ≤ off.toNat ∧ off.toNat ≤ 0x06) ∨ (0x10 ≤ off.toNat ∧ off.toNat ≤ 0x19)

/-- A reserved offset (R36). -/
abbrev IsReservedOffset (off : Offset) : Prop :=
  (0x0B ≤ off.toNat ∧ off.toNat ≤ 0x0F) ∨ (0x1A ≤ off.toNat ∧ off.toNat ≤ 0x1F)

/-- A read-only offset: STATUS, RESULT, FSM_STATE, TXLEN, ECHO_REM, EXP_LEN or TXBUF[0..15] (R185). -/
abbrev IsReadOnlyOffset (off : Offset) : Prop :=
  (0x01 ≤ off.toNat ∧ off.toNat ≤ 0x03) ∨ off.toNat = 0x07 ∨ off.toNat = 0x09 ∨ off.toNat = 0x0A ∨
  (0x20 ≤ off.toNat ∧ off.toNat ≤ 0x2F)

/-- STATUS after a completion (R255), REPLY_EXP aside. -/
def doneStatus (s : State) : Status := { s.status with busy := false, done := true }

/-- What a header read leaves: the bytes read appended, then one resync (R150). -/
def headerRead (s : State) : State :=
  resync (appendRx (s.rxq.take (4 - s.rxcnt.toNat)) { s with rxq := s.rxq.drop (4 - s.rxcnt.toNat) })

/-- What a body read leaves: the bytes read appended (R157). -/
def bodyRead (s : State) : State :=
  appendRx (s.rxq.take (s.expLen.toNat - s.rxcnt.toNat)) { s with rxq := s.rxq.drop (s.expLen.toNat - s.rxcnt.toNat) }

/-- The bytes that arrive in a run (R61). -/
def arrivals : List Event → List Byte
  | [] => []
  | .arrive b :: es => b :: arrivals es
  | _ :: es => arrivals es

/-- The frame in TXBUF, TXBUF[0 .. TXLEN-1] (R144). -/
def txFrame (s : State) : List Byte := s.txbuf.toList.take s.txlen.toNat

/-! ### The environment premises (R70 to R72)

They speak of the run of one TRANSACT: from its accepted start to the next one, or to the end of the run. -/

/-- A run as the agent steps in order, each with the state it meets (R6). -/
def runTrace (t : Timing) : List Event → State → List (Event × State)
  | [], _ => []
  | e :: es, s =>
    (e, s) ::
      match perform t e s with
      | .next s' => runTrace t es s'
      | .fault _ => []
      | .refused _ => []

/-- An engine step in the phase `f` (R143): an engine turn that meets BUSY = 1 and FSM_STATE = `f`. -/
def stepsIn (f : FsmState) (p : Event × State) : Bool := isEngine p.1 && p.2.status.busy && p.2.fsm == f

/-- The transport answers the call of this agent step, if it makes one, with whole success: `Ok(len(s))` to a write,
which is the SENDING step's call, and `Ok` to a read (R63, R64, R72). -/
def answeredWhole (p : Event × State) : Bool :=
  match p.1 with
  | .engine .err => !p.2.status.busy
  | .engine (.ok unsent) => !(p.2.status.busy && p.2.fsm == .sending) || unsent == 0
  | _ => true

/-- The bytes that arrive in a part of a run (R61). -/
def arriving (tr : List (Event × State)) : List Byte := arrivals (tr.map Prod.fst)

/-- What follows the SENDING step in the run of a TRANSACT. -/
def afterSending (tr : List (Event × State)) : List (Event × State) :=
  (tr.dropWhile fun p => !stepsIn .sending p).drop 1

/-- The part of a run before the first engine step in the phase `f`. -/
def beforeStepIn (f : FsmState) (tr : List (Event × State)) : List (Event × State) :=
  tr.takeWhile fun p => !stepsIn f p

/-- The part of a run from the first engine step in the phase `f` on. -/
def fromStepIn (f : FsmState) (tr : List (Event × State)) : List (Event × State) :=
  tr.dropWhile fun p => !stepsIn f p

/-- The frame the TRANSACT sends: TXBUF[0 .. TXLEN-1] at its SENDING step (R144). -/
def sentFrame (tr : List (Event × State)) : List Byte :=
  match tr.find? (stepsIn .sending) with
  | some p => txFrame p.2
  | none => []

/-- Premise NO-FAULT of a run (R72). -/
abbrev NoFault (tr : List (Event × State)) : Prop := ∀ p ∈ tr, answeredWhole p = true

/-- Premise ECHO-PROMPT of a TRANSACT (R70): (a) its SENDING step's write returned `Ok(TXLEN)`; (b), (c) the frame sent is
what arrives first after that step, whole, before the first DISCARDING_ECHO step (anywhere in the run where it has no such
step: DESIGN CHOICE, safe, entry 26). -/
abbrev EchoPrompt (tr : List (Event × State)) : Prop :=
  (tr.find? (stepsIn .sending)).map Prod.fst = some (.engine (.ok 0)) ∧
  sentFrame tr <+: arriving (beforeStepIn .discardingEcho (afterSending tr))

/-- Premise REPLY(F) of a TRANSACT (R71): F arrives after the echo and before the first AWAITING_HEADER step, and no other
byte until the TRANSACT completes.

DESIGN CHOICE, safe (entry 26): R71 leaves open what it bars in a run with no AWAITING_HEADER step (the echo's read failed,
or no reply is expected). There the first conjunct spans the whole run, so every byte besides the echo and F is barred to
the run's end, after the TRANSACT completes too. -/
abbrev ReplyArrives (reply : List Byte) (tr : List (Event × State)) : Prop :=
  arriving (beforeStepIn .awaitingHeader (afterSending tr)) = sentFrame tr ++ reply ∧
  arriving ((fromStepIn .awaitingHeader (afterSending tr)).filter fun p => p.2.status.busy) = []

/-- The reference line (R72): ECHO-PROMPT, REPLY(F) and NO-FAULT, or, for a request with no reply, ECHO-PROMPT and
NO-FAULT with no arrival after the echo. -/
abbrev ReferenceLine : Option (List Byte) → List (Event × State) → Prop
  | some reply, tr => EchoPrompt tr ∧ ReplyArrives reply tr ∧ NoFault tr
  | none, tr => EchoPrompt tr ∧ NoFault tr ∧ arriving (afterSending tr) = sentFrame tr

/-- A host access that starts no command and writes neither RXCNT nor RXBUF: polling, and loading the next request. -/
def isQuietAccess (w : AccessWord) : Bool :=
  match decode w with
  | .ok .ctrlNop => true
  | .ok (.regRead _) => true
  | .ok (.regWrite off _) => off.toNat != 0x08 && off.toNat < 0x30
  | _ => false

/-- The events that leave an exchange to itself: every event but a reset and a host access that starts a command or writes
the receive registers. -/
def isQuiet : Event → Bool
  | .access w => isQuietAccess w
  | .engine _ => true
  | .arrive _ => true
  | .tick => true
  | .reset => false

end Sys2Proof.Machine
end

