-- ==== Sys2Proof/Certificates/Slice0/Obligations.lean ====
section
/-! DEFINITION. The statements for the provers: what the rules of spec/ say an instruction, an engine step or the
machine does. Each docstring names the rules it rests on. -/

open Sys2Proof
open Sys2Proof.Machine

/-! ### Encoding -/

/-- Decode and encode agree: the canonical word of every instruction that has one decodes to it (R81, R93). -/
def Obligations.EncodedInstructionDecodesBack : Prop :=
  ∀ i : Instr, i.wellFormed = true → decode (encode i) = .ok i

/-- Every 15-bit access word is an instruction: the decoder never rejects one (R92, R93, R188). -/
def Obligations.EveryAccessWordIsAnInstruction : Prop :=
  ∀ w : AccessWord, ∃ i, decode w = .ok i ∧ i.wellFormed = true

/-- "A decoder reads the rows of `opcode_table.json` in order and takes the first row with `word & mask = match`"
(R93). -/
def Obligations.DecoderTakesFirstMatchingRow : Prop :=
  ∀ w : AccessWord, ∃ (n : Nat) (r : Row),
    opcodeTable[n]? = some r ∧ w &&& r.mask = r.pattern ∧
    (∀ (m : Nat) (r' : Row), m < n → opcodeTable[m]? = some r' → w &&& r'.mask ≠ r'.pattern) ∧
    decode w = .ok (r.instr w)

/-- The reserved bits of a CTRL write, its W bit for an OP other than 3, and the DATA field of a read do not change the
instruction (R81, R92, R180). -/
def Obligations.IgnoredBitsDoNotChangeInstruction : Prop :=
  (∀ v v' : Byte, v.extractLsb' 0 2 = v'.extractLsb' 0 2 →
    (v.extractLsb' 0 2 = 3 → v.getLsbD 2 = v'.getLsbD 2) →
    decode (accessWord true 0 v) = decode (accessWord true 0 v')) ∧
  (∀ (off : Offset) (d d' : Byte), decode (accessWord false off d) = decode (accessWord false off d'))

/-- Words written out from R81 and R93, one for each row of the table. -/
def Obligations.WrittenOutWordsDecode : Prop :=
  decode 0b100000000000000 = .ok .ctrlNop ∧
  decode 0b100000000000001 = .ok .ctrlEncode ∧
  decode 0b100000000000010 = .ok .ctrlDecode ∧
  decode 0b100000000000011 = .ok (.ctrlTransact false) ∧
  decode 0b100000000000111 = .ok (.ctrlTransact true) ∧
  decode 0b100010000000001 = .ok (.regWrite 0x04 0x01) ∧
  decode 0b111011011110010 = .ok (.regWrite 0x36 0xF2) ∧
  decode 0b000000100000000 = .ok (.regRead 0x01) ∧
  decode 0b010111100000000 = .ok (.regRead 0x2F)

/-! ### One step -/

/-- When the next agent step is a host access whose word decodes to an instruction, the step is that instruction's
meaning, at the state with the access taken off (R6, R93). -/
def Obligations.StepRunsTheDecodedInstruction : Prop :=
  ∀ (s : State) (w : AccessWord) (rest : List Event) (i : Instr),
    s.upcoming = .access w :: rest → decode w = .ok i → i.wellFormed = true →
    step s = exec i { s with upcoming := rest }

/-- A step performs the next agent step, each agent's as its rule gives it (R5, R6, R61, R143, R262, R280). THE MODEL'S
CHOICE (notes entry 1): the agent steps written out in the state come first, and where none is, the step is a free
draw. -/
def Obligations.StepPerformsTheNextAgentEvent : Prop :=
  (∀ (s : State) (rest : List Event) (a : Answer), s.upcoming = .engine a :: rest →
    step s = engineStep Config.timing a { s with upcoming := rest }) ∧
  (∀ (s : State) (rest : List Event) (b : Byte), s.upcoming = .arrive b :: rest →
    step s = .next { s with upcoming := rest, rxq := s.rxq ++ [b] }) ∧
  (∀ (s : State) (rest : List Event), s.upcoming = .tick :: rest →
    step s = .next { s with upcoming := rest, now := s.now + 1 }) ∧
  (∀ (s : State) (rest : List Event), s.upcoming = .reset :: rest →
    step s = .next { State.reset with
      rxq := s.rxq, now := s.now, line := s.line, hostReads := s.hostReads, upcoming := rest, draws := s.draws }) ∧
  (∀ s : State, s.upcoming = [] →
    ∃ e, step s = perform Config.timing e { s with draws := s.draws + 1 })

/-! ### Register access -/

/-- REG_READ returns the byte the map gives for its offset, and changes nothing else (R180, R55). -/
def Obligations.RegisterReadFollowsTheMap : Prop :=
  ∀ (s : State) (off : Offset), ∃ b : Byte,
    exec (.regRead off) s = .next { s with hostReads := s.hostReads ++ [b] } ∧
    (off = 0x00 → b = 0x00) ∧
    (off = 0x01 → b.getLsbD 0 = s.status.busy ∧ b.getLsbD 1 = s.status.done ∧ b.getLsbD 2 = s.status.rejected ∧
      b.getLsbD 3 = s.status.replyExp ∧ ∀ k, 4 ≤ k → b.getLsbD k = false) ∧
    (off = 0x02 → b = s.result) ∧
    (off = 0x03 → (s.fsm = .idle → b = 0) ∧ (s.fsm = .sending → b = 1) ∧ (s.fsm = .discardingEcho → b = 2) ∧
      (s.fsm = .awaitingHeader → b = 3) ∧ (s.fsm = .awaitingBody → b = 4)) ∧
    (off = 0x04 → b = s.reqId) ∧ (off = 0x05 → b = s.reqCmd) ∧ (off = 0x06 → b = s.reqNparam) ∧
    (off = 0x07 → b = s.txlen) ∧ (off = 0x08 → b = s.rxcnt) ∧ (off = 0x09 → b = s.echoRem) ∧
    (off = 0x0A → b = s.expLen) ∧
    (∀ i : Fin 10, off.toNat = 0x10 + i.val → b = s.reqParam[i]) ∧
    (∀ i : Fin 16, off.toNat = 0x20 + i.val → b = s.txbuf[i]) ∧
    (∀ i : Fin 16, off.toNat = 0x30 + i.val → b = s.rxbuf[i]) ∧
    (IsReservedOffset off → b = 0x00)

/-- The reserved offsets read 0x00 and ignore writes in every state, the reserved bits of STATUS and FSM_STATE read 0,
and no access at any offset faults or is refused (R188). -/
def Obligations.ReservedOffsetsAreInertAndNoAccessFaults : Prop :=
  (∀ (s : State) (off : Offset) (v : Byte), IsReservedOffset off →
    exec (.regRead off) s = .next { s with hostReads := s.hostReads ++ [0x00] } ∧ exec (.regWrite off v) s = .next s) ∧
  (∀ (s : State) (k : Nat), 4 ≤ k → (regRead s 0x01).getLsbD k = false) ∧
  (∀ (s : State) (k : Nat), 3 ≤ k → (regRead s 0x03).getLsbD k = false) ∧
  (∀ (s : State) (off : Offset) (v : Byte),
    exec (.regRead off) s = .next { s with hostReads := s.hostReads ++ [regRead s off] } ∧
    Runs (exec (.regWrite off v) s))

/-- A write to a read-only offset has no effect (R185). -/
def Obligations.ReadOnlyOffsetsIgnoreWrites : Prop :=
  ∀ (s : State) (off : Offset) (v : Byte), IsReadOnlyOffset off → exec (.regWrite off v) s = .next s

/-- Writes to RXBUF and RXCNT take effect only while BUSY = 0, and no host access writes either while BUSY = 1
(R186). -/
def Obligations.ReceiveRegistersAreWrittenOnlyWhileIdle : Prop :=
  (∀ (s : State) (v : Byte), s.status.busy = false →
    exec (.regWrite 0x08 v) s = .next { s with rxcnt := v } ∧
    ∀ (i : Fin 16) (off : Offset), off.toNat = 0x30 + i.val →
      exec (.regWrite off v) s = .next { s with rxbuf := s.rxbuf.set i v }) ∧
  (∀ (s : State) (v : Byte), s.status.busy = true →
    exec (.regWrite 0x08 v) s = .next s ∧
    ∀ off : Offset, 0x30 ≤ off.toNat → exec (.regWrite off v) s = .next s) ∧
  (∀ (i : Instr) (s t : State), s.status.busy = true → exec i s = .next t →
    t.rxbuf = s.rxbuf ∧ t.rxcnt = s.rxcnt)

/-- Writes to the request registers take effect in every state, and while BUSY = 1 they do not affect the TRANSACT in
flight: the engine's step gives the same state but for the register written (R187). -/
def Obligations.RequestRegistersAreWritableAlways : Prop :=
  (∀ (s : State) (v : Byte),
    exec (.regWrite 0x04 v) s = .next { s with reqId := v } ∧
    exec (.regWrite 0x05 v) s = .next { s with reqCmd := v } ∧
    exec (.regWrite 0x06 v) s = .next { s with reqNparam := v } ∧
    ∀ (i : Fin 10) (off : Offset), off.toNat = 0x10 + i.val →
      exec (.regWrite off v) s = .next { s with reqParam := s.reqParam.set i v }) ∧
  (∀ (tm : Timing) (a : Answer) (s s' t t' : State) (off : Offset) (v : Byte),
    s.status.busy = true → IsRequestOffset off → exec (.regWrite off v) s = .next s' →
    engineStep tm a s = .next t → exec (.regWrite off v) t = .next t' → engineStep tm a s' = .next t')

/-- A write at offset 0x00 is the command that the written byte's word decodes to (R22, R181). -/
def Obligations.CtrlWriteRunsItsCommand : Prop :=
  ∀ (s : State) (v : Byte) (i : Instr), decode (accessWord true 0x00 v) = .ok i →
    exec (.regWrite 0x00 v) s = exec i s

/-! ### Command dispatch -/

/-- NOP "has no effect in any state", whatever bits [7:2] are (R182). -/
def Obligations.NopHasNoEffect : Prop :=
  (∀ s : State, exec .ctrlNop s = .next s) ∧
  ∀ (s : State) (v : Byte), v.extractLsb' 0 2 = 0 →
    decode (accessWord true 0x00 v) = .ok .ctrlNop ∧ exec (.regWrite 0x00 v) s = .next s

/-- A start while BUSY = 1 only sets REJECTED; REJECTED stays 1 until the next accepted start or reset; and only a
TRANSACT makes BUSY = 1 (R183). -/
def Obligations.StartWhileBusyIsRejected : Prop :=
  (∀ (s : State) (v : Byte) (i : Instr), s.status.busy = true → v.extractLsb' 0 2 ≠ 0 →
    decode (accessWord true 0x00 v) = .ok i →
    exec i s = .next { s with status := { s.status with rejected := true } }) ∧
  (∀ (tm : Timing) (e : Event) (s t : State), perform tm e s = .next t →
    s.status.rejected = true → t.status.rejected = false →
    e = .reset ∨ (s.status.busy = false ∧ ∃ w, e = .access w ∧ StartsCommand w)) ∧
  (∀ (tm : Timing) (e : Event) (s t : State), perform tm e s = .next t →
    s.status.busy = false → t.status.busy = true →
    ∃ w want, e = .access w ∧ decode w = .ok (.ctrlTransact want))

/-- ENCODE completes in its step: a request with more than 10 parameters, or else with id 255, is refused; any other
is built into TXBUF, and nothing but STATUS, RESULT, FSM_STATE, TXBUF and TXLEN is written (R113, R116, R184, R255). -/
def Obligations.EncodeBuildsTheFrameOrRefuses : Prop :=
  ∀ s : State, s.status.busy = false →
    (10 < s.reqNparam.toNat →
      exec .ctrlEncode s = .next { s with
        status := ⟨false, true, false, false⟩, result := 0x17, fsm := .idle, txlen := 0, txbuf := zeroBuf }) ∧
    (s.reqNparam.toNat ≤ 10 → s.reqId = 255 →
      exec .ctrlEncode s = .next { s with
        status := ⟨false, true, false, false⟩, result := 0x27, fsm := .idle, txlen := 0, txbuf := zeroBuf }) ∧
    (s.reqNparam.toNat ≤ 10 → s.reqId ≠ 255 →
      ∃ b : Vector Byte 16,
        exec .ctrlEncode s = .next { s with
          status := ⟨false, true, false, false⟩, result := 0x00, fsm := .idle,
          txlen := BitVec.ofNat 8 (s.reqNparam.toNat + 6), txbuf := b } ∧
        b[0] = 0x55 ∧ b[1] = 0x55 ∧ b[2] = s.reqId ∧ b[3].toNat = 3 + s.reqNparam.toNat ∧ b[4] = s.reqCmd ∧
        (∀ i : Fin 10, i.val < s.reqNparam.toNat → byteAt b (5 + i.val) = s.reqParam[i]) ∧
        (byteAt b (5 + s.reqNparam.toNat)).toNat =
          255 - (s.reqId.toNat + (3 + s.reqNparam.toNat) + s.reqCmd.toNat +
            ((s.reqParam.toList.take s.reqNparam.toNat).map BitVec.toNat).sum) % 256 ∧
        ∀ j : Fin 16, s.reqNparam.toNat + 6 ≤ j.val → b[j] = 0x00)

/-- DECODE completes in its step with the outcome of DecodeFrame on RXBUF[0..RXCNT−1], or INVALID_REQUEST 3 where
RXCNT > 16; EXP_LEN is 3 + L where the header and length checks passed, else 0; nothing else but STATUS, RESULT and
FSM_STATE is written (R117, R184, R255). -/
def Obligations.DecodeReportsTheCodecsVerdict : Prop :=
  ∀ s : State, s.status.busy = false →
    (16 < s.rxcnt.toNat →
      exec .ctrlDecode s = .next { s with
        status := ⟨false, true, false, false⟩, result := 0x37, fsm := .idle, expLen := 0 }) ∧
    (s.rxcnt.toNat ≤ 16 → ∃ r e : Byte,
      exec .ctrlDecode s = .next { s with
        status := ⟨false, true, false, false⟩, result := r, fsm := .idle, expLen := e } ∧
      (∀ f, decodeFrame s.rxbuf s.rxcnt.toNat = .ok f → r = 0x00 ∧ e.toNat = f) ∧
      (∀ x, decodeFrame s.rxbuf s.rxcnt.toNat = .error x →
        r.extractLsb' 0 4 = codeBits x.code ∧ r.extractLsb' 4 4 = x.detail ∧
        (x = ⟨.malformedResponse, 4⟩ ∨ x = ⟨.checksumMismatch, 0⟩ → e.toNat = 3 + s.rxbuf[3].toNat) ∧
        (x ≠ ⟨.malformedResponse, 4⟩ → x ≠ ⟨.checksumMismatch, 0⟩ → e = 0)))

/-- TRANSACT starts the engine on a request that encodes, with every per-call register initialised and REPLY_EXP =
(W = 1 and REQ_ID ≠ 254); a request that does not encode completes at once with INVALID_REQUEST, and no byte of `rxq`
or of the line is touched (R140, R141, R142, R184, D12). -/
def Obligations.TransactStartsTheEngineOrRefuses : Prop :=
  ∀ (s : State) (want : Bool), s.status.busy = false →
    (s.reqNparam.toNat ≤ 10 → s.reqId ≠ 255 →
      ∃ f, encodeFrame s.reqId s.reqCmd s.reqNparam s.reqParam = .ok f ∧
        exec (.ctrlTransact want) s = .next { s with
          status := ⟨true, false, false, want && s.reqId != 254⟩, result := 0x00, fsm := .sending,
          txlen := BitVec.ofNat 8 (s.reqNparam.toNat + 6), txbuf := bufOfList f,
          rxcnt := 0, rxbuf := zeroBuf, echoRem := 0, expLen := 0, deadline := 0 }) ∧
    (10 < s.reqNparam.toNat →
      exec (.ctrlTransact want) s = .next { s with
        status := ⟨false, true, false, false⟩, result := 0x17, fsm := .idle, txlen := 0, txbuf := zeroBuf,
        rxcnt := 0, rxbuf := zeroBuf, echoRem := 0, expLen := 0, deadline := 0 }) ∧
    (s.reqNparam.toNat ≤ 10 → s.reqId = 255 →
      exec (.ctrlTransact want) s = .next { s with
        status := ⟨false, true, false, false⟩, result := 0x27, fsm := .idle, txlen := 0, txbuf := zeroBuf,
        rxcnt := 0, rxbuf := zeroBuf, echoRem := 0, expLen := 0, deadline := 0 })

/-! ### Engine steps -/

/-- The engine has a step exactly while BUSY = 1: a turn while BUSY = 0 changes nothing (R143; the model's reading,
notes entry 11), and a turn in flight in a state of the invariant gives a next state. -/
def Obligations.EngineStepsExactlyWhileBusy : Prop :=
  (∀ (tm : Timing) (a : Answer) (s : State), s.status.busy = false → engineStep tm a s = .next s) ∧
  (∀ (tm : Timing) (a : Answer) (s : State), s.status.busy = true → TransceiverInv tm s → ∃ t,
    engineStep tm a s = .next t ∧ (t.status.busy = true → t.fsm ≠ .idle) ∧
    (t.status.busy = false → t.fsm = .idle ∧ t.status.done = true))

/-- The SENDING step: `rxq` is discarded and the frame written; a failed write and a short write complete with
TRANSPORT_FAILURE 1 and 2, a whole write completes with OK where no reply is expected, and else starts the echo phase
(R144, R145, R146). What reaches the line in a failed write is a free value: the statement holds whatever it is. -/
def Obligations.SendingDiscardsWritesAndGoesOn : Prop :=
  ∀ (tm : Timing) (s : State), s.status.busy = true → s.fsm = .sending → s.txlen.toNat ≤ 16 →
    (∃ reached, engineStep tm .err s = .next { s with
      rxq := [], line := s.line ++ reached, draws := s.draws + 1,
      result := 0x11, status := doneStatus s, fsm := .idle }) ∧
    (∀ c, c < s.txlen.toNat → engineStep tm (.ok (s.txlen.toNat - c)) s = .next { s with
      rxq := [], line := s.line ++ (txFrame s).take c,
      result := 0x21, status := doneStatus s, fsm := .idle }) ∧
    (s.status.replyExp = false → engineStep tm (.ok 0) s = .next { s with
      rxq := [], line := s.line ++ txFrame s, result := 0x00, status := doneStatus s, fsm := .idle }) ∧
    (s.status.replyExp = true → engineStep tm (.ok 0) s = .next { s with
      rxq := [], line := s.line ++ txFrame s, echoRem := s.txlen, fsm := .discardingEcho })

/-- The DISCARDING_ECHO step: the echo bytes read, at most ECHO_REM of them, are dropped without being stored or
compared; the phase ends, and arms the header deadline, when ECHO_REM is 0 or nothing was read (R147, R148, R149). -/
def Obligations.EchoIsDiscardedByCount : Prop :=
  ∀ (tm : Timing) (s : State) (u : Nat), s.status.busy = true → s.fsm = .discardingEcho → s.echoRem ≠ 0 →
    (s.echoRem.toNat ≤ s.rxq.length → engineStep tm (.ok u) s = .next { s with
      rxq := s.rxq.drop s.echoRem.toNat, echoRem := 0,
      deadline := s.now + tm.header, fsm := .awaitingHeader }) ∧
    (s.rxq = [] → engineStep tm (.ok u) s = .next { s with
      deadline := s.now + tm.header, fsm := .awaitingHeader }) ∧
    (0 < s.rxq.length → s.rxq.length < s.echoRem.toNat → engineStep tm (.ok u) s = .next { s with
      rxq := [], echoRem := BitVec.ofNat 8 (s.echoRem.toNat - s.rxq.length) })

/-- A failed TransportRead in any phase appends nothing and completes with TRANSPORT_FAILURE before any other check;
`rxq`, RXBUF, RXCNT, ECHO_REM and EXP_LEN keep their values (R160). -/
def Obligations.FailedReadAppendsNothing : Prop :=
  ∀ (tm : Timing) (s : State), s.status.busy = true →
    (s.fsm = .discardingEcho → s.echoRem ≠ 0 → engineStep tm .err s = .next { s with
      result := 0x31, status := doneStatus s, fsm := .idle }) ∧
    (s.fsm = .awaitingHeader → s.rxcnt.toNat ≤ 3 → engineStep tm .err s = .next { s with
      result := 0x41, status := doneStatus s, fsm := .idle }) ∧
    (s.fsm = .awaitingBody → s.rxcnt.toNat < s.expLen.toNat → engineStep tm .err s = .next { s with
      result := 0x51, status := doneStatus s, fsm := .idle })

/-- `append(s)` stores the bytes after those held and raises RXCNT by their number (R151). -/
def Obligations.AppendStoresAfterTheBytesHeld : Prop :=
  ∀ (s : State) (bytes : List Byte), s.rxcnt.toNat + bytes.length ≤ 16 →
    (appendRx bytes s).rxcnt.toNat = s.rxcnt.toNat + bytes.length ∧
    (∀ (i : Nat) (h : i < bytes.length), byteAt (appendRx bytes s).rxbuf (s.rxcnt.toNat + i) = bytes[i]) ∧
    (∀ j : Fin 16, (j.val < s.rxcnt.toNat ∨ s.rxcnt.toNat + bytes.length ≤ j.val) →
      (appendRx bytes s).rxbuf[j] = s.rxbuf[j]) ∧
    appendRx bytes s = { s with rxbuf := (appendRx bytes s).rxbuf, rxcnt := (appendRx bytes s).rxcnt }

/-- `resync()` shifts RXBUF left by one byte, clears the vacated byte and lowers RXCNT by one when at least two bytes
are held and no header stands in front; else it changes nothing (R152). -/
def Obligations.ResyncShiftsOneByteOrNothing : Prop :=
  ∀ s : State, s.rxcnt.toNat ≤ 16 →
    (2 ≤ s.rxcnt.toNat → ¬ (s.rxbuf[0] = 0x55 ∧ s.rxbuf[1] = 0x55) →
      (resync s).rxcnt.toNat = s.rxcnt.toNat - 1 ∧
      (∀ i, i + 1 < s.rxcnt.toNat → byteAt (resync s).rxbuf i = byteAt s.rxbuf (i + 1)) ∧
      byteAt (resync s).rxbuf (s.rxcnt.toNat - 1) = 0x00 ∧
      (∀ j : Fin 16, s.rxcnt.toNat ≤ j.val → (resync s).rxbuf[j] = s.rxbuf[j]) ∧
      resync s = { s with rxbuf := (resync s).rxbuf, rxcnt := (resync s).rxcnt }) ∧
    (s.rxcnt.toNat < 2 ∨ (s.rxbuf[0] = 0x55 ∧ s.rxbuf[1] = 0x55) → resync s = s)

/-- The AWAITING_HEADER step: after the read and one resync, a complete header has the header pattern in front and goes
to the length checks (implausible, oversize, or on to the body with a fresh deadline); an incomplete one times out if
the deadline has passed, and else waits. Completion wins over the deadline (R150, R153, R154, R155, R156). -/
def Obligations.HeaderStepCompletesTimesOutOrWaits : Prop :=
  ∀ (tm : Timing) (s r : State) (u : Nat), s.status.busy = true → s.fsm = .awaitingHeader → s.rxcnt.toNat ≤ 3 →
    r = headerRead s →
    (r.rxcnt.toNat = 4 →
      (r.rxbuf[0] = 0x55 ∧ r.rxbuf[1] = 0x55) ∧
      (r.rxbuf[3].toNat < 3 →
        engineStep tm (.ok u) s = .next { r with result := 0x35, status := doneStatus s, fsm := .idle }) ∧
      (13 < r.rxbuf[3].toNat →
        engineStep tm (.ok u) s = .next { r with result := 0x06, status := doneStatus s, fsm := .idle }) ∧
      (3 ≤ r.rxbuf[3].toNat → r.rxbuf[3].toNat ≤ 13 →
        engineStep tm (.ok u) s = .next { r with
          expLen := BitVec.ofNat 8 (3 + r.rxbuf[3].toNat), deadline := s.now + tm.body, fsm := .awaitingBody })) ∧
    (r.rxcnt.toNat ≠ 4 → r.rxcnt.toNat < 4 ∧
      (s.deadline ≤ s.now →
        engineStep tm (.ok u) s = .next { r with result := 0x02, status := doneStatus s, fsm := .idle }) ∧
      (s.now < s.deadline → engineStep tm (.ok u) s = .next r))

/-- The AWAITING_BODY step: a complete body is judged by its checksum alone, an incomplete one times out if the
deadline has passed, keeping the partial frame, and else waits (R157, R158, R159). -/
def Obligations.BodyStepDecodesTimesOutOrWaits : Prop :=
  ∀ (tm : Timing) (s r : State) (u : Nat), s.status.busy = true → s.fsm = .awaitingBody → BodyInv tm s →
    r = bodyRead s →
    (r.rxcnt = s.expLen →
      (byteAt r.rxbuf (s.expLen.toNat - 1) =
          cks ((r.rxbuf.toList.take (s.expLen.toNat - 1)).drop 2) →
        engineStep tm (.ok u) s = .next { r with result := 0x00, status := doneStatus s, fsm := .idle }) ∧
      (byteAt r.rxbuf (s.expLen.toNat - 1) ≠
          cks ((r.rxbuf.toList.take (s.expLen.toNat - 1)).drop 2) →
        engineStep tm (.ok u) s = .next { r with result := 0x04, status := doneStatus s, fsm := .idle })) ∧
    (r.rxcnt ≠ s.expLen → r.rxcnt.toNat < s.expLen.toNat ∧
      (s.deadline ≤ s.now →
        engineStep tm (.ok u) s = .next { r with result := 0x03, status := doneStatus s, fsm := .idle }) ∧
      (s.now < s.deadline → engineStep tm (.ok u) s = .next r))

/-! ### Outcomes -/

/-- `raise E(d)` writes RESULT = (d << 4) | code(E), DONE = 1, BUSY = 0 and FSM_STATE = IDLE, and no other register;
where the command ran with BUSY = 0 already, the last two change nothing (R255). -/
def Obligations.CompletionWritesExactlyItsRegisters : Prop :=
  (∀ (c : Code) (d : BitVec 4) (s : State),
    complete ⟨c, d⟩ s = { s with
      result := (d.setWidth 8 <<< 4) ||| (codeBits c).setWidth 8,
      status := { s.status with done := true, busy := false }, fsm := .idle }) ∧
  (∀ (r : Raised) (s : State), StatusInv s → s.status.busy = false →
    (complete r s).status.busy = s.status.busy ∧ (complete r s).fsm = s.fsm)

/-- The raise matrix: the outcomes each command can produce, and no other (R253). -/
def Obligations.RaiseMatrixIsExhaustive : Prop :=
  (∀ s t : State, s.status.busy = false → exec .ctrlEncode s = .next t → t.result ∈ [0x00, 0x17, 0x27]) ∧
  (∀ s t : State, s.status.busy = false → exec .ctrlDecode s = .next t →
    t.result ∈ [0x00, 0x15, 0x25, 0x35, 0x45, 0x06, 0x04, 0x37]) ∧
  (∀ (s t : State) (want : Bool), s.status.busy = false → exec (.ctrlTransact want) s = .next t →
    t.status.busy = false → t.result ∈ [0x17, 0x27]) ∧
  (∀ (tm : Timing) (a : Answer) (s t : State), s.status.busy = true → engineStep tm a s = .next t →
    t.status.busy = false →
    t.result ∈ [0x00, 0x11, 0x21, 0x31, 0x41, 0x51, 0x02, 0x03, 0x35, 0x06, 0x04]) ∧
  (∀ s t : State, exec .ctrlNop s = .next t → t.status.done = s.status.done ∧ t.result = s.result)

/-- RESULT changes only by an engine step that completes a TRANSACT in flight, by an accepted start, which clears it or
completes its command in the same step, or by reset (R25, R184, R255, R280). -/
def Obligations.ResultIsWrittenByCompletionStartOrReset : Prop :=
  ∀ (tm : Timing) (e : Event) (s t : State), perform tm e s = .next t → t.result ≠ s.result →
    e = .reset ∨
    (s.status.busy = true ∧ (∃ a, e = .engine a) ∧
      t.status.done = true ∧ t.status.busy = false ∧ t.fsm = .idle) ∨
    (s.status.busy = false ∧ (∃ w, e = .access w ∧ StartsCommand w) ∧
      (t.result = 0x00 ∨ (t.status.done = true ∧ t.status.busy = false ∧ t.fsm = .idle)))

/-- Once BUSY = 0, no agent's step but a command start, a host write of RXBUF or RXCNT, or a reset changes the final
values of the command (R58). -/
def Obligations.CompletedOutcomeIsStable : Prop :=
  ∀ (tm : Timing) (e : Event) (s t : State), s.status.busy = false → perform tm e s = .next t →
    e ≠ .reset → (∀ w, e = .access w → ¬ StartsCommand w ∧ ¬ WritesReceive w) →
    t.status = s.status ∧ t.result = s.result ∧ t.txbuf = s.txbuf ∧ t.txlen = s.txlen ∧ t.rxbuf = s.rxbuf ∧
    t.rxcnt = s.rxcnt ∧ t.echoRem = s.echoRem ∧ t.expLen = s.expLen

/-- No host action ends a TRANSACT in flight: it keeps every register of the exchange. Only a completion by the engine
and reset end one (R161). -/
def Obligations.NoHostActionEndsATransact : Prop :=
  (∀ (i : Instr) (s t : State), s.status.busy = true → exec i s = .next t →
    t = { s with
      status := { s.status with rejected := t.status.rejected },
      reqId := t.reqId, reqCmd := t.reqCmd, reqNparam := t.reqNparam, reqParam := t.reqParam,
      hostReads := t.hostReads }) ∧
  (∀ (tm : Timing) (e : Event) (s t : State), s.status.busy = true → perform tm e s = .next t →
    t.status.busy = false →
    e = .reset ∨ ∃ a, e = .engine a ∧ t.status.done = true ∧ t.fsm = .idle)

/-- Only ENCODE, a TRANSACT start and reset write TXBUF, and what they write is a frame of EncodeFrame for the request
registers, or nothing (R30, R67). -/
def Obligations.OnlyEncodeFillsTxbuf : Prop :=
  ∀ (tm : Timing) (e : Event) (s t : State), perform tm e s = .next t →
    (t.txbuf ≠ s.txbuf ∨ t.txlen ≠ s.txlen) →
    (t.txbuf = zeroBuf ∧ t.txlen = 0 ∧ (e = .reset ∨ (s.status.busy = false ∧ ∃ w, e = .access w ∧ StartsCommand w))) ∨
    (s.status.busy = false ∧ (∃ w, e = .access w ∧ StartsCommand w) ∧
      ∃ f, encodeFrame s.reqId s.reqCmd s.reqNparam s.reqParam = .ok f ∧
        t.txbuf = bufOfList f ∧ t.txlen.toNat = f.length)

/-- Only a SENDING step writes the line, and what has gone onto it stays (R63, R144, D50). -/
def Obligations.OnlySendingWritesTheLine : Prop :=
  ∀ (tm : Timing) (e : Event) (s t : State), perform tm e s = .next t →
    (∃ sent, t.line = s.line ++ sent) ∧
    (t.line ≠ s.line → ∃ a, e = .engine a ∧ s.status.busy = true ∧ s.fsm = .sending)

/-- The clock advances by `Tick` alone, by 1, and neither a reset nor any other step changes it (R262, R281). -/
def Obligations.ClockAdvancesByTickAlone : Prop :=
  ∀ (tm : Timing) (e : Event) (s t : State), perform tm e s = .next t →
    (e = .tick → t.now = s.now + 1) ∧ (e ≠ .tick → t.now = s.now)

/-! ### Reset -/

/-- Reset: every register reads 0x00 and DEADLINE is 0; the environment is untouched, and the abandoned TRANSACT raises
no outcome (R280, R281). -/
def Obligations.ResetClearsEveryRegister : Prop :=
  (∀ off : Offset, regRead State.reset off = 0x00) ∧ State.reset.deadline = 0 ∧
  ∀ (tm : Timing) (s : State), ∃ t, perform tm .reset s = .next t ∧
    (∀ off : Offset, regRead t off = 0x00) ∧ t.deadline = 0 ∧
    t.rxq = s.rxq ∧ t.now = s.now ∧ t.line = s.line

/-- A TRANSACT started on the reset values of the request registers sends the frame 55 55 00 03 00 FC: the start loads it
into TXBUF, and a whole write of the SENDING step puts it on the line (R286, R140, R144). -/
def Obligations.ResetRequestSendsTheDefaultFrame : Prop :=
  ∀ (tm : Timing) (want : Bool), ∃ t v,
    exec (.ctrlTransact want) State.reset = .next t ∧ txFrame t = [0x55, 0x55, 0x00, 0x03, 0x00, 0xFC] ∧
    engineStep tm (.ok 0) t = .next v ∧ v.line = State.reset.line ++ [0x55, 0x55, 0x00, 0x03, 0x00, 0xFC]

/-! ### Invariants -/

/-- The invariant holds at reset, and TXBUF holds nothing there (R280). -/
def Obligations.ResetMeetsTheInvariants : Prop :=
  TransceiverInv Config.timing State.reset ∧ TxHoldsFrame State.reset

/-- Every step keeps the invariant of spec/10_state.md and spec/41_transaction.md section 7 (R23 to R25, R30 to R35,
R142, R149 to R157, R252). -/
def Obligations.StepKeepsTheInvariant : Prop :=
  ∀ s t : State, TransceiverInv Config.timing s → step s = .next t → TransceiverInv Config.timing t

/-- The transceiver has no trap and no fault: from every state of the invariant, a step gives a next state, whichever
agent steps and whatever the transport answers (R188, R250). -/
def Obligations.MachineNeverStops : Prop :=
  ∀ s : State, TransceiverInv Config.timing s → ∃ t, step s = .next t

/-- Every step keeps TXBUF a whole valid frame, or empty: "Frames are immutable once built" (R30, R31, R67, R113,
R114). -/
def Obligations.StepKeepsTxbufAFrame : Prop :=
  ∀ s t : State, TxHoldsFrame s → step s = .next t → TxHoldsFrame t

/-! ### The exchange as a whole -/

/-- "no persistent cross-call state": two idle states with the same request registers, the same clock, line and model's
fields, and anything else different (every other register, and the stale bytes in `rxq`), run the same exchange from
a TRANSACT start on, whatever the engine, the line and the clock do after its SENDING step (R142, R144). -/
def Obligations.ExchangeForgetsTheOneBefore : Prop :=
  ∀ (tm : Timing) (s s' t t' : State) (want : Bool) (a : Answer) (es : List Event),
    s.status.busy = false → s'.status.busy = false → s.reqNparam.toNat ≤ 10 → s.reqId ≠ 255 →
    s'.reqId = s.reqId → s'.reqCmd = s.reqCmd → s'.reqNparam = s.reqNparam → s'.reqParam = s.reqParam →
    s'.now = s.now → s'.line = s.line → s'.hostReads = s.hostReads → s'.upcoming = s.upcoming →
    s'.draws = s.draws →
    exec (.ctrlTransact want) s = .next t → exec (.ctrlTransact want) s' = .next t' →
    performAll tm (.engine a :: es) t = performAll tm (.engine a :: es) t'

/-- A TRANSACT to the broadcast id completes in its SENDING step, whatever W is and whatever the transport answers; on
a whole write with OK and the empty result (R141, R145, R294). -/
def Obligations.BroadcastNeverWaitsForAReply : Prop :=
  ∀ (tm : Timing) (s t : State) (want : Bool),
    s.status.busy = false → s.reqId = 254 → s.reqNparam.toNat ≤ 10 → exec (.ctrlTransact want) s = .next t →
    (∀ a, ∃ v, engineStep tm a t = .next v ∧ v.status.busy = false ∧ v.status.replyExp = false) ∧
    ∃ v, engineStep tm (.ok 0) t = .next v ∧ v.result = 0x00 ∧ v.rxcnt = 0 ∧ v.expLen = 0

/-- The reference line decides the outcome of a TRANSACT (R70, R71, R72, R140 to R158), whatever the request, the timing
and the interleaving, with the host polling or loading the next request in between.
With REPLY(F), for any valid frame F, a TRANSACT that expects a reply ends with OK and F in RXBUF within four engine turns.
With no arrival after the echo, a TRANSACT that expects no reply ends with OK and the empty result, its echo still pending,
and one that expects a reply can only end with TIMEOUT_AWAITING_HEADER, its echo discarded. -/
def Obligations.ReferenceLineDecidesTheOutcome : Prop :=
  ∀ (tm : Timing) (s t : State) (want : Bool) (es : List Event),
    s.status.busy = false → s.reqNparam.toNat ≤ 10 → s.reqId ≠ 255 → exec (.ctrlTransact want) s = .next t →
    (∀ e ∈ es, isQuiet e = true) →
    (∀ (id cmd n : Byte) (p : Vector Byte 10) (f : List Byte),
      want = true → s.reqId ≠ 254 → encodeFrame id cmd n p = .ok f → ReferenceLine (some f) (runTrace tm es t) →
      4 ≤ (es.filter isEngine).length →
      ∃ v, performAll tm es t = .next v ∧
        v.status = ⟨false, true, false, true⟩ ∧ v.result = 0x00 ∧ v.fsm = .idle ∧
        v.rxbuf = bufOfList f ∧ v.rxcnt.toNat = f.length ∧ v.expLen.toNat = f.length ∧ v.echoRem = 0 ∧
        v.line = s.line ++ txFrame t ∧ (arrivals es = txFrame t ++ f → v.rxq = [])) ∧
    (want = false ∨ s.reqId = 254 → ReferenceLine none (runTrace tm es t) →
      ∃ v, performAll tm es t = .next v ∧
        v.status = ⟨false, true, false, false⟩ ∧ v.result = 0x00 ∧ v.fsm = .idle ∧
        v.rxbuf = zeroBuf ∧ v.rxcnt = 0 ∧ v.expLen = 0 ∧ v.echoRem = 0 ∧
        v.line = s.line ++ txFrame t ∧ v.rxq = txFrame t) ∧
    (want = true → s.reqId ≠ 254 → ReferenceLine none (runTrace tm es t) →
      ∃ v, performAll tm es t = .next v ∧ v.line = s.line ++ txFrame t ∧
        (v.status.busy = false →
          v.status = ⟨false, true, false, true⟩ ∧ v.result = 0x02 ∧ v.fsm = .idle ∧
          v.rxbuf = zeroBuf ∧ v.rxcnt = 0 ∧ v.expLen = 0 ∧ v.echoRem = 0 ∧ v.rxq = []))

/-- First header wins: whatever the sizes of the reads, the header phase accepts the first `0x55 0x55` of the bytes it
receives, those pending and those arriving, and takes the four bytes from there (spec/41_transaction.md section 7,
from R150 to R153). -/
def Obligations.HeaderPhaseTakesTheFirstHeader : Prop :=
  ∀ (tm : Timing) (s u t : State) (es : List Event) (a : Answer),
    s.status.busy = true → s.fsm = .awaitingHeader → s.rxcnt = 0 → (∀ e ∈ es, isInner e = true) →
    performAll tm es s = .next u → u.fsm = .awaitingHeader →
    engineStep tm a u = .next t → t.fsm = .awaitingBody →
    ∃ p, (∀ k, k < 4 → (s.rxq ++ arrivals es)[p + k]? = some (byteAt t.rxbuf k)) ∧
      HeaderAt (s.rxq ++ arrivals es) p ∧ ∀ j, j < p → ¬ HeaderAt (s.rxq ++ arrivals es) j

/-- The echo phase ends after at most ECHO_REM + 1 of the engine's turns, whatever arrives in between: every step that
does not end it consumes a byte (R147). -/
def Obligations.EchoPhaseIsBounded : Prop :=
  ∀ (tm : Timing) (s t : State) (es : List Event),
    s.status.busy = true → s.fsm = .discardingEcho → s.echoRem ≠ 0 → (∀ e ∈ es, isInner e = true) →
    s.echoRem.toNat < (es.filter isEngine).length → performAll tm es s = .next t → t.fsm ≠ .discardingEcho

/-- Termination: every TRANSACT in flight completes once the engine has had 18 turns, then `T_HEADER_MS` ticks and a
turn, then `T_BODY_MS` ticks and a turn, whatever else the engine, the line and the clock do in between and whatever
the transport answers (spec/41_transaction.md section 7, from R147, R263 and R264). -/
def Obligations.TransactCompletesWhenEngineAndClockRun : Prop :=
  ∀ (tm : Timing) (s t : State) (es₁ es₂ es₃ : List Event) (a b : Answer),
    TransceiverInv tm s → (∀ e ∈ es₁ ++ es₂ ++ es₃, isInner e = true) →
    18 ≤ (es₁.filter isEngine).length → tm.header ≤ es₂.count .tick → tm.body ≤ es₃.count .tick →
    performAll tm (es₁ ++ es₂ ++ [.engine a] ++ es₃ ++ [.engine b]) s = .next t → t.status.busy = false

/-! ### The codec -/

/-- `CKS(s) = ~sum8(s) = 255 − ((Σ_i s[i]) mod 256)`; truncating after each addition gives the same; a sum ≡ 0 gives
0xFF and a sum ≡ 255 gives 0x00 (R110). -/
def Obligations.ChecksumIsTheComplementedSum : Prop :=
  ∀ s : List Byte,
    (cks s).toNat = 255 - (s.map BitVec.toNat).sum % 256 ∧
    cks s = ~~~ (s.foldl (· + ·) 0) ∧
    ((s.map BitVec.toNat).sum % 256 = 0 → cks s = 0xFF) ∧
    ((s.map BitVec.toNat).sum % 256 = 255 → cks s = 0x00)

/-- The length predicates: IMPLAUSIBLE(L) is L < 3, OVERSIZE(L) is 3 + L > 16, which is L > 13, and the two never hold
together (R112). -/
def Obligations.LengthPredicatesAreAsStated : Prop :=
  ∀ l : Byte,
    (implausible l = true ↔ l.toNat < 3) ∧ (oversize l = true ↔ 3 + l.toNat > 16) ∧
    (oversize l = true ↔ l.toNat > 13) ∧ ¬ (implausible l = true ∧ oversize l = true)

/-- EncodeFrame refuses more than 10 parameters, then id 255, and else builds the frame byte for byte; nothing is
truncated (R83 to R86, R113). -/
def Obligations.EncodeFrameBuildsTheWireFormat : Prop :=
  ∀ (id cmd n : Byte) (p : Vector Byte 10),
    (10 < n.toNat → encodeFrame id cmd n p = .error ⟨.invalidRequest, 1⟩) ∧
    (n.toNat ≤ 10 → id = 255 → encodeFrame id cmd n p = .error ⟨.invalidRequest, 2⟩) ∧
    (n.toNat ≤ 10 → id ≠ 255 → ∃ f, encodeFrame id cmd n p = .ok f ∧ f.length = n.toNat + 6 ∧
      f[0]? = some 0x55 ∧ f[1]? = some 0x55 ∧ f[2]? = some id ∧ f[3]? = some (n + 3) ∧ f[4]? = some cmd ∧
      (∀ i : Fin 10, i.val < n.toNat → f[5 + i.val]? = some p[i]) ∧
      f[5 + n.toNat]? = some (cks ((f.take (5 + n.toNat)).drop 2)))

/-- DecodeFrame applies its checks in the stated order and returns the first failure, and it reads no byte at or
beyond c (R114). -/
def Obligations.DecodeFrameChecksInOrder : Prop :=
  (∀ (b : Vector Byte 16) (c : Nat), c ≤ 16 →
    (c < 2 → decodeFrame b c = .error ⟨.malformedResponse, 2⟩) ∧
    (2 ≤ c → ¬ (b[0] = 0x55 ∧ b[1] = 0x55) → decodeFrame b c = .error ⟨.malformedResponse, 1⟩) ∧
    (2 ≤ c → c < 4 → b[0] = 0x55 → b[1] = 0x55 → decodeFrame b c = .error ⟨.malformedResponse, 2⟩) ∧
    (4 ≤ c → b[0] = 0x55 → b[1] = 0x55 →
      (b[3].toNat < 3 → decodeFrame b c = .error ⟨.malformedResponse, 3⟩) ∧
      (13 < b[3].toNat → decodeFrame b c = .error ⟨.oversizeResponse, 0⟩) ∧
      (3 ≤ b[3].toNat → b[3].toNat ≤ 13 →
        (c < 3 + b[3].toNat → decodeFrame b c = .error ⟨.malformedResponse, 4⟩) ∧
        (3 + b[3].toNat ≤ c → byteAt b (2 + b[3].toNat) ≠ cks ((b.toList.take (2 + b[3].toNat)).drop 2) →
          decodeFrame b c = .error ⟨.checksumMismatch, 0⟩) ∧
        (3 + b[3].toNat ≤ c → byteAt b (2 + b[3].toNat) = cks ((b.toList.take (2 + b[3].toNat)).drop 2) →
          decodeFrame b c = .ok (3 + b[3].toNat))))) ∧
  (∀ (b b' : Vector Byte 16) (c : Nat), c ≤ 16 → (∀ i : Fin 16, i.val < c → b[i] = b'[i]) →
    decodeFrame b c = decodeFrame b' c)

/-- The round-trip law: a buffer that begins with an encoded frame decodes to that frame, and its view gives back the
id, the command and the parameters (spec/40_frame_codec.md section 4, from R113 to R115). -/
def Obligations.EncodedFrameDecodesBack : Prop :=
  ∀ (id cmd n : Byte) (p : Vector Byte 10) (f : List Byte) (b : Vector Byte 16) (c : Nat),
    encodeFrame id cmd n p = .ok f → (∀ i, i < f.length → f[i]? = some (byteAt b i)) → f.length ≤ c → c ≤ 16 →
    decodeFrame b c = .ok f.length ∧
    (frameView b).id = id ∧ (frameView b).command = cmd ∧ (frameView b).length = n + 3 ∧
    (frameView b).params = p.toList.take n.toNat

/-- A change of any one byte among the id, the command, the parameters and the checksum of a valid frame gives
CHECKSUM_MISMATCH (spec/40_frame_codec.md section 4, from R110 and R114). -/
def Obligations.SingleByteChangeIsDetected : Prop :=
  ∀ (b : Vector Byte 16) (f : Nat) (j : Fin 16) (v : Byte),
    decodeFrame b f = .ok f → (j.val = 2 ∨ 4 ≤ j.val) → j.val < f → v ≠ b[j] →
    decodeFrame (b.set j v) f = .error ⟨.checksumMismatch, 0⟩

/-- A change of a header byte of a valid frame gives MALFORMED_RESPONSE 1; a change of its length byte to L' gives
MALFORMED 3, OVERSIZE or MALFORMED 4 as L' is below 3, above 13 or declares more bytes than are there
(spec/40_frame_codec.md section 4, from R111, R112 and R114). -/
def Obligations.HeaderOrLengthChangeIsClassified : Prop :=
  ∀ (b : Vector Byte 16) (f : Nat) (v : Byte), decodeFrame b f = .ok f →
    (v ≠ b[0] → decodeFrame (b.set 0 v) f = .error ⟨.malformedResponse, 1⟩) ∧
    (v ≠ b[1] → decodeFrame (b.set 1 v) f = .error ⟨.malformedResponse, 1⟩) ∧
    (v.toNat < 3 → decodeFrame (b.set 3 v) f = .error ⟨.malformedResponse, 3⟩) ∧
    (13 < v.toNat → decodeFrame (b.set 3 v) f = .error ⟨.oversizeResponse, 0⟩) ∧
    (v.toNat ≤ 13 → f < 3 + v.toNat → decodeFrame (b.set 3 v) f = .error ⟨.malformedResponse, 4⟩)

/-- The wrapping comparison of a W-bit realisation agrees with `Now() ≥ DEADLINE` whenever the two are at most
2^(W−1) − 1 ms apart (R264). -/
def Obligations.WrappedDeadlineTestAgrees : Prop :=
  ∀ (width now deadline : Nat), 16 ≤ width →
    now ≤ deadline + (2 ^ (width - 1) - 1) → deadline ≤ now + (2 ^ (width - 1) - 1) →
    (deadlinePassedWrapped width (BitVec.ofNat width now) (BitVec.ofNat width deadline) = true ↔ deadline ≤ now)

/-! ### Host software -/

/-- The 16-bit fields: little-endian bytes that decode back, unsigned and signed, with the examples of R202 (R200,
R202). -/
def Obligations.SixteenBitFieldsRoundTrip : Prop :=
  (∀ v : Word16, ∃ lo hi : Byte, u16le v = [lo, hi] ∧ v.toNat = lo.toNat + 256 * hi.toNat ∧ u16ofLe lo hi = v) ∧
  (∀ s : Int, -32768 ≤ s → s ≤ 32767 → ∃ lo hi : Byte, i16le s = [lo, hi] ∧
    ((lo.toNat : Int) + 256 * hi.toNat = s % 65536) ∧ i16ofLe lo hi = s) ∧
  i16le (-1) = [0xFF, 0xFF] ∧ i16le (-500) = [0x0C, 0xFE] ∧ i16le 500 = [0xF4, 0x01] ∧ i16le (-32768) = [0x00, 0x80]

/-- POS refuses exactly NaN and the infinities, clamps every other angle to 0 to 1000, and gives 0 for every negative
one (R221). -/
def Obligations.PositionsAreClampedAndNonFiniteRefused : Prop :=
  ∀ a : BitVec 64,
    (pos a = none ↔ a.extractLsb' 52 11 = 0x7FF) ∧
    (∀ p, pos a = some p → p.toNat ≤ 1000 ∧ (a.getLsbD 63 = true → p = 0))

/-- `set_angle_limits` issues the angle-limit write with the smaller of its two positions as the first field and the larger
as the second, each a little-endian u16, with no reply wanted, and returns the name of its result; where POS refuses either
angle it returns INVALID_REQUEST with no register access; the order of its two arguments does not matter (R206, R227). -/
def Obligations.AngleLimitsAreNormalised : Prop :=
  ∀ (codes : CommandCodes) (id : Byte) (x y : BitVec 64),
    (∀ lo hi : Word16, pos x = some lo → pos y = some hi →
      (lo.toNat ≤ hi.toNat → setAngleLimits codes id x y =
        issue id codes.angleLimitWrite
          [lo.extractLsb' 0 8, lo.extractLsb' 8 8, hi.extractLsb' 0 8, hi.extractLsb' 8 8] false
          fun r => .done (nameOf r)) ∧
      (hi.toNat < lo.toNat → setAngleLimits codes id x y =
        issue id codes.angleLimitWrite
          [hi.extractLsb' 0 8, hi.extractLsb' 8 8, lo.extractLsb' 0 8, lo.extractLsb' 8 8] false
          fun r => .done (nameOf r))) ∧
    (pos x = none ∨ pos y = none →
      setAngleLimits codes id x y = .done (.named .invalidRequest) ∧ nextAccess (setAngleLimits codes id x y) = none) ∧
    setAngleLimits codes id x y = setAngleLimits codes id y x

/-- `read_position` on the broadcast id is refused by the host with no register access at all (R224). -/
def Obligations.BroadcastReadIsRefusedByTheHost : Prop :=
  ∀ codes : CommandCodes,
    readPosition codes 254 = .done (.named .invalidRequest) ∧ nextAccess (readPosition codes 254) = none

/-- LOADREQ, run with no other agent's step in between, leaves the id, the command, the count and the parameters in the
request registers and changes nothing else (R95, R181). -/
def Obligations.LoadReqLoadsTheRequest : Prop :=
  ∀ (s : State) (id cmd : Byte) (params : List Byte) (r : HostResult), params.length ≤ 10 →
    ∃ q : Vector Byte 10,
      hostTurns (3 + params.length) (loadReq id cmd params (.done r)) s =
        .next (.done r, { s with
          reqId := id, reqCmd := cmd, reqNparam := BitVec.ofNat 8 params.length, reqParam := q }) ∧
      ∀ i : Fin 10, q[i] = params.getD i.val s.reqParam[i]

/-- `decode_position_reply` returns the u16 at RXBUF[5..6] of a reply with two parameters, and MALFORMED_RESPONSE for
any other; it changes nothing but what the host has read (R225). -/
def Obligations.PositionReplyIsDecodedByShape : Prop :=
  ∀ s : State,
    (s.rxbuf[3] = 5 →
      hostTurns 3 decodePositionReply s =
        .next (.done (.position (BitVec.ofNat 16 (s.rxbuf[5].toNat + 256 * s.rxbuf[6].toNat))),
          { s with hostReads := s.hostReads ++ [s.rxbuf[3], s.rxbuf[5], s.rxbuf[6]] })) ∧
    (s.rxbuf[3] ≠ 5 →
      hostTurns 1 decodePositionReply s =
        .next (.done (.named .malformedResponse), { s with hostReads := s.hostReads ++ [s.rxbuf[3]] }))
end

