-- ==== Sys2Proof/Laws/Codec.lean ====
section
/-! SUPPORT. The buffers entry by entry, and what EncodeFrame and DecodeFrame answer, once each. -/

namespace Sys2Proof.Machine

/-- A buffer given entry by entry has those entries. -/
@[simp] theorem getElem_bufOf (f : Nat → Byte) (i : Nat) (h : i < 16) : (bufOf f)[i] = f i := by
  interval_cases i <;> rfl

/-- Reading entry `i` by number is indexing. -/
theorem byteAt_eq (b : Vector Byte 16) (i : Nat) (h : i < 16) : byteAt b i = b[i] := by
  simp [byteAt, List.getD_eq_getElem?_getD, h]

/-- Past the last entry there is nothing. -/
theorem byteAt_ge (b : Vector Byte 16) (i : Nat) (h : 16 ≤ i) : byteAt b i = 0 := by
  simp [byteAt, List.getD_eq_getElem?_getD, h]

@[simp] theorem byteAt_bufOf (f : Nat → Byte) (i : Nat) (h : i < 16) : byteAt (bufOf f) i = f i := by
  simp [byteAt_eq _ _ h]

@[simp] theorem byteAt_zeroBuf (i : Nat) : byteAt zeroBuf i = 0 := by
  rcases Nat.lt_or_ge i 16 with h | h
  · simp [byteAt_eq _ _ h, zeroBuf]
  · exact byteAt_ge _ _ h

@[simp] theorem getElem_zeroBuf (i : Nat) (h : i < 16) : zeroBuf[i] = 0 := by simp [zeroBuf]

/-- A frame in a buffer, entry by entry: the frame's bytes, then 0x00. -/
@[simp] theorem getElem_bufOfList (f : List Byte) (i : Nat) (h : i < 16) : (bufOfList f)[i] = f.getD i 0 := by
  simp [bufOfList]

/-- Two buffers with the same entries are equal. -/
theorem buf_ext {a b : Vector Byte 16} (h : ∀ i, i < 16 → byteAt a i = byteAt b i) : a = b := by
  apply Vector.ext
  intro i hi
  simpa [byteAt_eq _ _ hi] using h i hi

@[simp] theorem bufOfList_nil : bufOfList [] = zeroBuf :=
  buf_ext fun i hi => by simp [byteAt_eq _ _ hi]

/-- The first bytes of a buffer that holds a list are the list's. -/
theorem take_bufOfList (f : List Byte) (h : f.length ≤ 16) : (bufOfList f).toList.take f.length = f := by
  apply List.ext_getElem
  · simp [h]
  · intro i h₁ h₂
    simp [List.getD_eq_getElem?_getD, h₂]

/-- IMPLAUSIBLE(L) is L < 3 (R112). -/
theorem implausible_iff (l : Byte) : implausible l = true ↔ l.toNat < 3 := by
  unfold implausible
  rw [decide_eq_true_iff]

/-- OVERSIZE(L) is L > 13 (R112). -/
theorem oversize_iff (l : Byte) : oversize l = true ↔ 13 < l.toNat := by
  unfold oversize
  rw [decide_eq_true_iff]
  unfold Config.maxFrame
  omega

/-- What EncodeFrame answers (R113): refusal for too many parameters, then for id 255, then the frame. -/
theorem encodeFrame_cases (id cmd n : Byte) (p : Vector Byte 10) :
    (10 < n.toNat ∧ encodeFrame id cmd n p = .error ⟨.invalidRequest, 1⟩) ∨
    (n.toNat ≤ 10 ∧ id = 255 ∧ encodeFrame id cmd n p = .error ⟨.invalidRequest, 2⟩) ∨
    (n.toNat ≤ 10 ∧ id ≠ 255 ∧
      encodeFrame id cmd n p = .ok ([Config.hdr0, Config.hdr1] ++
        ([id, BitVec.ofNat 8 (n.toNat + 3), cmd] ++ p.toList.take n.toNat) ++
        [cks ([id, BitVec.ofNat 8 (n.toNat + 3), cmd] ++ p.toList.take n.toNat)])) := by
  unfold encodeFrame
  simp only [Config.maxParams]
  split
  · exact .inl ⟨by assumption, rfl⟩
  · split
    · exact .inr (.inl ⟨by omega, by assumption, rfl⟩)
    · exact .inr (.inr ⟨by omega, by assumption, rfl⟩)

/-- EncodeFrame refuses only with INVALID_REQUEST, DETAIL 1 or 2 (R113). -/
theorem encodeFrame_error {id cmd n : Byte} {p : Vector Byte 10} {r : Raised}
    (h : encodeFrame id cmd n p = .error r) : r = ⟨.invalidRequest, 1⟩ ∨ r = ⟨.invalidRequest, 2⟩ := by
  rcases encodeFrame_cases id cmd n p with ⟨_, e⟩ | ⟨_, _, e⟩ | ⟨_, _, e⟩ <;> rw [e] at h <;> simp_all

/-- A frame of EncodeFrame is n + 6 bytes long, 6 to 16 (R84). -/
theorem encodeFrame_length {id cmd n : Byte} {p : Vector Byte 10} {f : List Byte}
    (h : encodeFrame id cmd n p = .ok f) : f.length = n.toNat + 6 ∧ n.toNat ≤ 10 := by
  rcases encodeFrame_cases id cmd n p with ⟨_, e⟩ | ⟨_, _, e⟩ | ⟨hn, _, e⟩ <;> rw [e] at h <;> simp_all
  subst h
  simp [hn]

/-- What an accepted frame of DecodeFrame satisfies: every check of R114. -/
theorem decodeFrame_ok {b : Vector Byte 16} {c f : Nat} (h : decodeFrame b c = .ok f) :
    f = 3 + (byteAt b 3).toNat ∧ hdrOk (byteAt b 0) (byteAt b 1) = true ∧ 3 ≤ (byteAt b 3).toNat ∧
    3 + (byteAt b 3).toNat ≤ 16 ∧ 3 + (byteAt b 3).toNat ≤ c ∧
    cks ((b.toList.drop 2).take (byteAt b 3).toNat) = byteAt b (2 + (byteAt b 3).toNat) := by
  unfold decodeFrame at h
  by_cases h1 : c < 2
  · simp [h1] at h
  by_cases h2 : hdrOk (byteAt b 0) (byteAt b 1) = true
  swap
  · simp [h1, h2] at h
  by_cases h3 : c < 4
  · simp [h1, h2, h3] at h
  by_cases h4 : implausible (byteAt b 3) = true
  · simp [h1, h2, h3, h4] at h
  by_cases h5 : oversize (byteAt b 3) = true
  · simp [h1, h2, h3, h4, h5] at h
  by_cases h6 : c < 3 + (byteAt b 3).toNat
  · simp [h1, h2, h3, h4, h5, h6] at h
  by_cases h7 : cks ((b.toList.drop 2).take (byteAt b 3).toNat) = byteAt b (2 + (byteAt b 3).toNat)
  swap
  · simp [h1, h2, h3, h4, h5, h6, h7] at h
  simp [h1, h2, h3, h4, h5, h6, h7] at h
  rw [implausible_iff] at h4
  rw [oversize_iff] at h5
  exact ⟨h.symm, h2, by omega, by omega, by omega, h7⟩

/-- What DecodeFrame answers when every check before the checksum passes (R114, R158). -/
theorem decodeFrame_whole {b : Vector Byte 16} {c : Nat} (hh : hdrOk (byteAt b 0) (byteAt b 1) = true)
    (hl : 3 ≤ (byteAt b 3).toNat) (ho : 3 + (byteAt b 3).toNat ≤ 16) (hc : 3 + (byteAt b 3).toNat ≤ c) :
    decodeFrame b c =
      if cks ((b.toList.drop 2).take (byteAt b 3).toNat) = byteAt b (2 + (byteAt b 3).toNat)
      then .ok (3 + (byteAt b 3).toNat) else .error ⟨.checksumMismatch, 0⟩ := by
  unfold decodeFrame
  have h1 : ¬ c < 2 := by omega
  have h2 : ¬ c < 4 := by omega
  have h3 : implausible (byteAt b 3) = false := by rw [← Bool.not_eq_true, implausible_iff]; omega
  have h4 : oversize (byteAt b 3) = false := by rw [← Bool.not_eq_true, oversize_iff]; omega
  have h5 : ¬ c < 3 + (byteAt b 3).toNat := by omega
  simp [h1, h2, h3, h4, h5, hh]

/-- The seven outcomes of DecodeFrame (R114, R253). -/
theorem decodeFrame_error {b : Vector Byte 16} {c : Nat} {r : Raised} (h : decodeFrame b c = .error r) :
    r = ⟨.malformedResponse, 2⟩ ∨ r = ⟨.malformedResponse, 1⟩ ∨ r = ⟨.malformedResponse, 3⟩ ∨
    r = ⟨.oversizeResponse, 0⟩ ∨ r = ⟨.malformedResponse, 4⟩ ∨ r = ⟨.checksumMismatch, 0⟩ := by
  unfold decodeFrame at h
  by_cases h1 : c < 2
  · simp_all
  by_cases h2 : hdrOk (byteAt b 0) (byteAt b 1) = true
  swap
  · simp_all
  by_cases h3 : c < 4
  · simp_all
  by_cases h4 : implausible (byteAt b 3) = true
  · simp_all
  by_cases h5 : oversize (byteAt b 3) = true
  · simp_all
  by_cases h6 : c < 3 + (byteAt b 3).toNat
  · simp [h1, h2, h3, h4, h5, h6] at h; simp [← h]
  by_cases h7 : cks ((b.toList.drop 2).take (byteAt b 3).toNat) = byteAt b (2 + (byteAt b 3).toNat)
  · simp [h1, h2, h3, h4, h5, h6, h7] at h
  · simp [h1, h2, h3, h4, h5, h6, h7] at h; simp [← h]

end Sys2Proof.Machine
end

