-- ==== Sys2Proof/Laws/State.lean ====
section
/-! SUPPORT. One lemma per field per update of the state: each shared operation that writes the state, read at each
field. -/

namespace Sys2Proof.Machine

variable (s : State)

/-! ### complete -/

@[simp] theorem complete_status (r : Raised) : (complete r s).status = statusOnComplete s.status := (rfl)
@[simp] theorem complete_result (r : Raised) : (complete r s).result = resultByte r := (rfl)
@[simp] theorem complete_fsm (r : Raised) : (complete r s).fsm = .idle := (rfl)
@[simp] theorem complete_reqId (r : Raised) : (complete r s).reqId = s.reqId := (rfl)
@[simp] theorem complete_reqCmd (r : Raised) : (complete r s).reqCmd = s.reqCmd := (rfl)
@[simp] theorem complete_reqNparam (r : Raised) : (complete r s).reqNparam = s.reqNparam := (rfl)
@[simp] theorem complete_reqParam (r : Raised) : (complete r s).reqParam = s.reqParam := (rfl)
@[simp] theorem complete_txlen (r : Raised) : (complete r s).txlen = s.txlen := (rfl)
@[simp] theorem complete_txbuf (r : Raised) : (complete r s).txbuf = s.txbuf := (rfl)
@[simp] theorem complete_rxcnt (r : Raised) : (complete r s).rxcnt = s.rxcnt := (rfl)
@[simp] theorem complete_rxbuf (r : Raised) : (complete r s).rxbuf = s.rxbuf := (rfl)
@[simp] theorem complete_echoRem (r : Raised) : (complete r s).echoRem = s.echoRem := (rfl)
@[simp] theorem complete_expLen (r : Raised) : (complete r s).expLen = s.expLen := (rfl)
@[simp] theorem complete_deadline (r : Raised) : (complete r s).deadline = s.deadline := (rfl)
@[simp] theorem complete_rxq (r : Raised) : (complete r s).rxq = s.rxq := (rfl)
@[simp] theorem complete_now (r : Raised) : (complete r s).now = s.now := (rfl)
@[simp] theorem complete_line (r : Raised) : (complete r s).line = s.line := (rfl)
@[simp] theorem complete_hostReads (r : Raised) : (complete r s).hostReads = s.hostReads := (rfl)
@[simp] theorem complete_upcoming (r : Raised) : (complete r s).upcoming = s.upcoming := (rfl)
@[simp] theorem complete_draws (r : Raised) : (complete r s).draws = s.draws := (rfl)

/-! ### acceptStart -/

@[simp] theorem acceptStart_status : (acceptStart s).status = statusOnStart s.status := (rfl)
@[simp] theorem acceptStart_result : (acceptStart s).result = 0 := (rfl)
@[simp] theorem acceptStart_fsm : (acceptStart s).fsm = s.fsm := (rfl)
@[simp] theorem acceptStart_reqId : (acceptStart s).reqId = s.reqId := (rfl)
@[simp] theorem acceptStart_reqCmd : (acceptStart s).reqCmd = s.reqCmd := (rfl)
@[simp] theorem acceptStart_reqNparam : (acceptStart s).reqNparam = s.reqNparam := (rfl)
@[simp] theorem acceptStart_reqParam : (acceptStart s).reqParam = s.reqParam := (rfl)
@[simp] theorem acceptStart_txlen : (acceptStart s).txlen = s.txlen := (rfl)
@[simp] theorem acceptStart_txbuf : (acceptStart s).txbuf = s.txbuf := (rfl)
@[simp] theorem acceptStart_rxcnt : (acceptStart s).rxcnt = s.rxcnt := (rfl)
@[simp] theorem acceptStart_rxbuf : (acceptStart s).rxbuf = s.rxbuf := (rfl)
@[simp] theorem acceptStart_echoRem : (acceptStart s).echoRem = s.echoRem := (rfl)
@[simp] theorem acceptStart_expLen : (acceptStart s).expLen = s.expLen := (rfl)
@[simp] theorem acceptStart_deadline : (acceptStart s).deadline = s.deadline := (rfl)
@[simp] theorem acceptStart_rxq : (acceptStart s).rxq = s.rxq := (rfl)
@[simp] theorem acceptStart_now : (acceptStart s).now = s.now := (rfl)
@[simp] theorem acceptStart_line : (acceptStart s).line = s.line := (rfl)
@[simp] theorem acceptStart_hostReads : (acceptStart s).hostReads = s.hostReads := (rfl)
@[simp] theorem acceptStart_upcoming : (acceptStart s).upcoming = s.upcoming := (rfl)
@[simp] theorem acceptStart_draws : (acceptStart s).draws = s.draws := (rfl)

/-! ### rejectStart -/

@[simp] theorem rejectStart_status : (rejectStart s).status = statusOnReject s.status := (rfl)
@[simp] theorem rejectStart_result : (rejectStart s).result = s.result := (rfl)
@[simp] theorem rejectStart_fsm : (rejectStart s).fsm = s.fsm := (rfl)
@[simp] theorem rejectStart_reqId : (rejectStart s).reqId = s.reqId := (rfl)
@[simp] theorem rejectStart_reqCmd : (rejectStart s).reqCmd = s.reqCmd := (rfl)
@[simp] theorem rejectStart_reqNparam : (rejectStart s).reqNparam = s.reqNparam := (rfl)
@[simp] theorem rejectStart_reqParam : (rejectStart s).reqParam = s.reqParam := (rfl)
@[simp] theorem rejectStart_txlen : (rejectStart s).txlen = s.txlen := (rfl)
@[simp] theorem rejectStart_txbuf : (rejectStart s).txbuf = s.txbuf := (rfl)
@[simp] theorem rejectStart_rxcnt : (rejectStart s).rxcnt = s.rxcnt := (rfl)
@[simp] theorem rejectStart_rxbuf : (rejectStart s).rxbuf = s.rxbuf := (rfl)
@[simp] theorem rejectStart_echoRem : (rejectStart s).echoRem = s.echoRem := (rfl)
@[simp] theorem rejectStart_expLen : (rejectStart s).expLen = s.expLen := (rfl)
@[simp] theorem rejectStart_deadline : (rejectStart s).deadline = s.deadline := (rfl)
@[simp] theorem rejectStart_rxq : (rejectStart s).rxq = s.rxq := (rfl)
@[simp] theorem rejectStart_now : (rejectStart s).now = s.now := (rfl)
@[simp] theorem rejectStart_line : (rejectStart s).line = s.line := (rfl)
@[simp] theorem rejectStart_hostReads : (rejectStart s).hostReads = s.hostReads := (rfl)
@[simp] theorem rejectStart_upcoming : (rejectStart s).upcoming = s.upcoming := (rfl)
@[simp] theorem rejectStart_draws : (rejectStart s).draws = s.draws := (rfl)

/-! ### sessionInit -/

@[simp] theorem sessionInit_status : (sessionInit s).status = s.status := (rfl)
@[simp] theorem sessionInit_result : (sessionInit s).result = s.result := (rfl)
@[simp] theorem sessionInit_fsm : (sessionInit s).fsm = s.fsm := (rfl)
@[simp] theorem sessionInit_reqId : (sessionInit s).reqId = s.reqId := (rfl)
@[simp] theorem sessionInit_reqCmd : (sessionInit s).reqCmd = s.reqCmd := (rfl)
@[simp] theorem sessionInit_reqNparam : (sessionInit s).reqNparam = s.reqNparam := (rfl)
@[simp] theorem sessionInit_reqParam : (sessionInit s).reqParam = s.reqParam := (rfl)
@[simp] theorem sessionInit_txlen : (sessionInit s).txlen = 0 := (rfl)
@[simp] theorem sessionInit_txbuf : (sessionInit s).txbuf = zeroBuf := (rfl)
@[simp] theorem sessionInit_rxcnt : (sessionInit s).rxcnt = 0 := (rfl)
@[simp] theorem sessionInit_rxbuf : (sessionInit s).rxbuf = zeroBuf := (rfl)
@[simp] theorem sessionInit_echoRem : (sessionInit s).echoRem = 0 := (rfl)
@[simp] theorem sessionInit_expLen : (sessionInit s).expLen = 0 := (rfl)
@[simp] theorem sessionInit_deadline : (sessionInit s).deadline = 0 := (rfl)
@[simp] theorem sessionInit_rxq : (sessionInit s).rxq = s.rxq := (rfl)
@[simp] theorem sessionInit_now : (sessionInit s).now = s.now := (rfl)
@[simp] theorem sessionInit_line : (sessionInit s).line = s.line := (rfl)
@[simp] theorem sessionInit_hostReads : (sessionInit s).hostReads = s.hostReads := (rfl)
@[simp] theorem sessionInit_upcoming : (sessionInit s).upcoming = s.upcoming := (rfl)
@[simp] theorem sessionInit_draws : (sessionInit s).draws = s.draws := (rfl)

/-! ### loadFrame -/

@[simp] theorem loadFrame_status (f : List Byte) : (loadFrame f s).status = s.status := (rfl)
@[simp] theorem loadFrame_result (f : List Byte) : (loadFrame f s).result = s.result := (rfl)
@[simp] theorem loadFrame_fsm (f : List Byte) : (loadFrame f s).fsm = s.fsm := (rfl)
@[simp] theorem loadFrame_reqId (f : List Byte) : (loadFrame f s).reqId = s.reqId := (rfl)
@[simp] theorem loadFrame_reqCmd (f : List Byte) : (loadFrame f s).reqCmd = s.reqCmd := (rfl)
@[simp] theorem loadFrame_reqNparam (f : List Byte) : (loadFrame f s).reqNparam = s.reqNparam := (rfl)
@[simp] theorem loadFrame_reqParam (f : List Byte) : (loadFrame f s).reqParam = s.reqParam := (rfl)
@[simp] theorem loadFrame_txlen (f : List Byte) : (loadFrame f s).txlen = BitVec.ofNat 8 f.length := (rfl)
@[simp] theorem loadFrame_txbuf (f : List Byte) : (loadFrame f s).txbuf = bufOfList f := (rfl)
@[simp] theorem loadFrame_rxcnt (f : List Byte) : (loadFrame f s).rxcnt = s.rxcnt := (rfl)
@[simp] theorem loadFrame_rxbuf (f : List Byte) : (loadFrame f s).rxbuf = s.rxbuf := (rfl)
@[simp] theorem loadFrame_echoRem (f : List Byte) : (loadFrame f s).echoRem = s.echoRem := (rfl)
@[simp] theorem loadFrame_expLen (f : List Byte) : (loadFrame f s).expLen = s.expLen := (rfl)
@[simp] theorem loadFrame_deadline (f : List Byte) : (loadFrame f s).deadline = s.deadline := (rfl)
@[simp] theorem loadFrame_rxq (f : List Byte) : (loadFrame f s).rxq = s.rxq := (rfl)
@[simp] theorem loadFrame_now (f : List Byte) : (loadFrame f s).now = s.now := (rfl)
@[simp] theorem loadFrame_line (f : List Byte) : (loadFrame f s).line = s.line := (rfl)
@[simp] theorem loadFrame_hostReads (f : List Byte) : (loadFrame f s).hostReads = s.hostReads := (rfl)
@[simp] theorem loadFrame_upcoming (f : List Byte) : (loadFrame f s).upcoming = s.upcoming := (rfl)
@[simp] theorem loadFrame_draws (f : List Byte) : (loadFrame f s).draws = s.draws := (rfl)

/-! ### transportDiscard -/

@[simp] theorem transportDiscard_status : (transportDiscard s).status = s.status := (rfl)
@[simp] theorem transportDiscard_result : (transportDiscard s).result = s.result := (rfl)
@[simp] theorem transportDiscard_fsm : (transportDiscard s).fsm = s.fsm := (rfl)
@[simp] theorem transportDiscard_reqId : (transportDiscard s).reqId = s.reqId := (rfl)
@[simp] theorem transportDiscard_reqCmd : (transportDiscard s).reqCmd = s.reqCmd := (rfl)
@[simp] theorem transportDiscard_reqNparam : (transportDiscard s).reqNparam = s.reqNparam := (rfl)
@[simp] theorem transportDiscard_reqParam : (transportDiscard s).reqParam = s.reqParam := (rfl)
@[simp] theorem transportDiscard_txlen : (transportDiscard s).txlen = s.txlen := (rfl)
@[simp] theorem transportDiscard_txbuf : (transportDiscard s).txbuf = s.txbuf := (rfl)
@[simp] theorem transportDiscard_rxcnt : (transportDiscard s).rxcnt = s.rxcnt := (rfl)
@[simp] theorem transportDiscard_rxbuf : (transportDiscard s).rxbuf = s.rxbuf := (rfl)
@[simp] theorem transportDiscard_echoRem : (transportDiscard s).echoRem = s.echoRem := (rfl)
@[simp] theorem transportDiscard_expLen : (transportDiscard s).expLen = s.expLen := (rfl)
@[simp] theorem transportDiscard_deadline : (transportDiscard s).deadline = s.deadline := (rfl)
@[simp] theorem transportDiscard_rxq : (transportDiscard s).rxq = [] := (rfl)
@[simp] theorem transportDiscard_now : (transportDiscard s).now = s.now := (rfl)
@[simp] theorem transportDiscard_line : (transportDiscard s).line = s.line := (rfl)
@[simp] theorem transportDiscard_hostReads : (transportDiscard s).hostReads = s.hostReads := (rfl)
@[simp] theorem transportDiscard_upcoming : (transportDiscard s).upcoming = s.upcoming := (rfl)
@[simp] theorem transportDiscard_draws : (transportDiscard s).draws = s.draws := (rfl)

/-! ### putOnLine -/

@[simp] theorem putOnLine_status (b : List Byte) : (putOnLine b s).status = s.status := (rfl)
@[simp] theorem putOnLine_result (b : List Byte) : (putOnLine b s).result = s.result := (rfl)
@[simp] theorem putOnLine_fsm (b : List Byte) : (putOnLine b s).fsm = s.fsm := (rfl)
@[simp] theorem putOnLine_reqId (b : List Byte) : (putOnLine b s).reqId = s.reqId := (rfl)
@[simp] theorem putOnLine_reqCmd (b : List Byte) : (putOnLine b s).reqCmd = s.reqCmd := (rfl)
@[simp] theorem putOnLine_reqNparam (b : List Byte) : (putOnLine b s).reqNparam = s.reqNparam := (rfl)
@[simp] theorem putOnLine_reqParam (b : List Byte) : (putOnLine b s).reqParam = s.reqParam := (rfl)
@[simp] theorem putOnLine_txlen (b : List Byte) : (putOnLine b s).txlen = s.txlen := (rfl)
@[simp] theorem putOnLine_txbuf (b : List Byte) : (putOnLine b s).txbuf = s.txbuf := (rfl)
@[simp] theorem putOnLine_rxcnt (b : List Byte) : (putOnLine b s).rxcnt = s.rxcnt := (rfl)
@[simp] theorem putOnLine_rxbuf (b : List Byte) : (putOnLine b s).rxbuf = s.rxbuf := (rfl)
@[simp] theorem putOnLine_echoRem (b : List Byte) : (putOnLine b s).echoRem = s.echoRem := (rfl)
@[simp] theorem putOnLine_expLen (b : List Byte) : (putOnLine b s).expLen = s.expLen := (rfl)
@[simp] theorem putOnLine_deadline (b : List Byte) : (putOnLine b s).deadline = s.deadline := (rfl)
@[simp] theorem putOnLine_rxq (b : List Byte) : (putOnLine b s).rxq = s.rxq := (rfl)
@[simp] theorem putOnLine_now (b : List Byte) : (putOnLine b s).now = s.now := (rfl)
@[simp] theorem putOnLine_line (b : List Byte) : (putOnLine b s).line = s.line ++ b := (rfl)
@[simp] theorem putOnLine_hostReads (b : List Byte) : (putOnLine b s).hostReads = s.hostReads := (rfl)
@[simp] theorem putOnLine_upcoming (b : List Byte) : (putOnLine b s).upcoming = s.upcoming := (rfl)
@[simp] theorem putOnLine_draws (b : List Byte) : (putOnLine b s).draws = s.draws := (rfl)

/-! ### failedWrite -/

@[simp] theorem failedWrite_status : (failedWrite s).status = s.status := (rfl)
@[simp] theorem failedWrite_result : (failedWrite s).result = s.result := (rfl)
@[simp] theorem failedWrite_fsm : (failedWrite s).fsm = s.fsm := (rfl)
@[simp] theorem failedWrite_reqId : (failedWrite s).reqId = s.reqId := (rfl)
@[simp] theorem failedWrite_reqCmd : (failedWrite s).reqCmd = s.reqCmd := (rfl)
@[simp] theorem failedWrite_reqNparam : (failedWrite s).reqNparam = s.reqNparam := (rfl)
@[simp] theorem failedWrite_reqParam : (failedWrite s).reqParam = s.reqParam := (rfl)
@[simp] theorem failedWrite_txlen : (failedWrite s).txlen = s.txlen := (rfl)
@[simp] theorem failedWrite_txbuf : (failedWrite s).txbuf = s.txbuf := (rfl)
@[simp] theorem failedWrite_rxcnt : (failedWrite s).rxcnt = s.rxcnt := (rfl)
@[simp] theorem failedWrite_rxbuf : (failedWrite s).rxbuf = s.rxbuf := (rfl)
@[simp] theorem failedWrite_echoRem : (failedWrite s).echoRem = s.echoRem := (rfl)
@[simp] theorem failedWrite_expLen : (failedWrite s).expLen = s.expLen := (rfl)
@[simp] theorem failedWrite_deadline : (failedWrite s).deadline = s.deadline := (rfl)
@[simp] theorem failedWrite_rxq : (failedWrite s).rxq = s.rxq := (rfl)
@[simp] theorem failedWrite_now : (failedWrite s).now = s.now := (rfl)
@[simp] theorem failedWrite_line : (failedWrite s).line = s.line ++ Config.lineAfterFailedWrite s.draws := (rfl)
@[simp] theorem failedWrite_hostReads : (failedWrite s).hostReads = s.hostReads := (rfl)
@[simp] theorem failedWrite_upcoming : (failedWrite s).upcoming = s.upcoming := (rfl)
@[simp] theorem failedWrite_draws : (failedWrite s).draws = s.draws + 1 := (rfl)

/-! ### consume -/

@[simp] theorem consume_status (r : Nat) : (consume r s).status = s.status := (rfl)
@[simp] theorem consume_result (r : Nat) : (consume r s).result = s.result := (rfl)
@[simp] theorem consume_fsm (r : Nat) : (consume r s).fsm = s.fsm := (rfl)
@[simp] theorem consume_reqId (r : Nat) : (consume r s).reqId = s.reqId := (rfl)
@[simp] theorem consume_reqCmd (r : Nat) : (consume r s).reqCmd = s.reqCmd := (rfl)
@[simp] theorem consume_reqNparam (r : Nat) : (consume r s).reqNparam = s.reqNparam := (rfl)
@[simp] theorem consume_reqParam (r : Nat) : (consume r s).reqParam = s.reqParam := (rfl)
@[simp] theorem consume_txlen (r : Nat) : (consume r s).txlen = s.txlen := (rfl)
@[simp] theorem consume_txbuf (r : Nat) : (consume r s).txbuf = s.txbuf := (rfl)
@[simp] theorem consume_rxcnt (r : Nat) : (consume r s).rxcnt = s.rxcnt := (rfl)
@[simp] theorem consume_rxbuf (r : Nat) : (consume r s).rxbuf = s.rxbuf := (rfl)
@[simp] theorem consume_echoRem (r : Nat) : (consume r s).echoRem = s.echoRem := (rfl)
@[simp] theorem consume_expLen (r : Nat) : (consume r s).expLen = s.expLen := (rfl)
@[simp] theorem consume_deadline (r : Nat) : (consume r s).deadline = s.deadline := (rfl)
@[simp] theorem consume_rxq (r : Nat) : (consume r s).rxq = s.rxq.drop r := (rfl)
@[simp] theorem consume_now (r : Nat) : (consume r s).now = s.now := (rfl)
@[simp] theorem consume_line (r : Nat) : (consume r s).line = s.line := (rfl)
@[simp] theorem consume_hostReads (r : Nat) : (consume r s).hostReads = s.hostReads := (rfl)
@[simp] theorem consume_upcoming (r : Nat) : (consume r s).upcoming = s.upcoming := (rfl)
@[simp] theorem consume_draws (r : Nat) : (consume r s).draws = s.draws := (rfl)

/-! ### arrive -/

@[simp] theorem arrive_status (b : Byte) : (arrive b s).status = s.status := (rfl)
@[simp] theorem arrive_result (b : Byte) : (arrive b s).result = s.result := (rfl)
@[simp] theorem arrive_fsm (b : Byte) : (arrive b s).fsm = s.fsm := (rfl)
@[simp] theorem arrive_reqId (b : Byte) : (arrive b s).reqId = s.reqId := (rfl)
@[simp] theorem arrive_reqCmd (b : Byte) : (arrive b s).reqCmd = s.reqCmd := (rfl)
@[simp] theorem arrive_reqNparam (b : Byte) : (arrive b s).reqNparam = s.reqNparam := (rfl)
@[simp] theorem arrive_reqParam (b : Byte) : (arrive b s).reqParam = s.reqParam := (rfl)
@[simp] theorem arrive_txlen (b : Byte) : (arrive b s).txlen = s.txlen := (rfl)
@[simp] theorem arrive_txbuf (b : Byte) : (arrive b s).txbuf = s.txbuf := (rfl)
@[simp] theorem arrive_rxcnt (b : Byte) : (arrive b s).rxcnt = s.rxcnt := (rfl)
@[simp] theorem arrive_rxbuf (b : Byte) : (arrive b s).rxbuf = s.rxbuf := (rfl)
@[simp] theorem arrive_echoRem (b : Byte) : (arrive b s).echoRem = s.echoRem := (rfl)
@[simp] theorem arrive_expLen (b : Byte) : (arrive b s).expLen = s.expLen := (rfl)
@[simp] theorem arrive_deadline (b : Byte) : (arrive b s).deadline = s.deadline := (rfl)
@[simp] theorem arrive_rxq (b : Byte) : (arrive b s).rxq = s.rxq ++ [b] := (rfl)
@[simp] theorem arrive_now (b : Byte) : (arrive b s).now = s.now := (rfl)
@[simp] theorem arrive_line (b : Byte) : (arrive b s).line = s.line := (rfl)
@[simp] theorem arrive_hostReads (b : Byte) : (arrive b s).hostReads = s.hostReads := (rfl)
@[simp] theorem arrive_upcoming (b : Byte) : (arrive b s).upcoming = s.upcoming := (rfl)
@[simp] theorem arrive_draws (b : Byte) : (arrive b s).draws = s.draws := (rfl)

/-! ### tick -/

@[simp] theorem tick_status : (tick s).status = s.status := (rfl)
@[simp] theorem tick_result : (tick s).result = s.result := (rfl)
@[simp] theorem tick_fsm : (tick s).fsm = s.fsm := (rfl)
@[simp] theorem tick_reqId : (tick s).reqId = s.reqId := (rfl)
@[simp] theorem tick_reqCmd : (tick s).reqCmd = s.reqCmd := (rfl)
@[simp] theorem tick_reqNparam : (tick s).reqNparam = s.reqNparam := (rfl)
@[simp] theorem tick_reqParam : (tick s).reqParam = s.reqParam := (rfl)
@[simp] theorem tick_txlen : (tick s).txlen = s.txlen := (rfl)
@[simp] theorem tick_txbuf : (tick s).txbuf = s.txbuf := (rfl)
@[simp] theorem tick_rxcnt : (tick s).rxcnt = s.rxcnt := (rfl)
@[simp] theorem tick_rxbuf : (tick s).rxbuf = s.rxbuf := (rfl)
@[simp] theorem tick_echoRem : (tick s).echoRem = s.echoRem := (rfl)
@[simp] theorem tick_expLen : (tick s).expLen = s.expLen := (rfl)
@[simp] theorem tick_deadline : (tick s).deadline = s.deadline := (rfl)
@[simp] theorem tick_rxq : (tick s).rxq = s.rxq := (rfl)
@[simp] theorem tick_now : (tick s).now = s.now + 1 := (rfl)
@[simp] theorem tick_line : (tick s).line = s.line := (rfl)
@[simp] theorem tick_hostReads : (tick s).hostReads = s.hostReads := (rfl)
@[simp] theorem tick_upcoming : (tick s).upcoming = s.upcoming := (rfl)
@[simp] theorem tick_draws : (tick s).draws = s.draws := (rfl)

/-! ### returnToHost -/

@[simp] theorem returnToHost_status (b : Byte) : (returnToHost b s).status = s.status := (rfl)
@[simp] theorem returnToHost_result (b : Byte) : (returnToHost b s).result = s.result := (rfl)
@[simp] theorem returnToHost_fsm (b : Byte) : (returnToHost b s).fsm = s.fsm := (rfl)
@[simp] theorem returnToHost_reqId (b : Byte) : (returnToHost b s).reqId = s.reqId := (rfl)
@[simp] theorem returnToHost_reqCmd (b : Byte) : (returnToHost b s).reqCmd = s.reqCmd := (rfl)
@[simp] theorem returnToHost_reqNparam (b : Byte) : (returnToHost b s).reqNparam = s.reqNparam := (rfl)
@[simp] theorem returnToHost_reqParam (b : Byte) : (returnToHost b s).reqParam = s.reqParam := (rfl)
@[simp] theorem returnToHost_txlen (b : Byte) : (returnToHost b s).txlen = s.txlen := (rfl)
@[simp] theorem returnToHost_txbuf (b : Byte) : (returnToHost b s).txbuf = s.txbuf := (rfl)
@[simp] theorem returnToHost_rxcnt (b : Byte) : (returnToHost b s).rxcnt = s.rxcnt := (rfl)
@[simp] theorem returnToHost_rxbuf (b : Byte) : (returnToHost b s).rxbuf = s.rxbuf := (rfl)
@[simp] theorem returnToHost_echoRem (b : Byte) : (returnToHost b s).echoRem = s.echoRem := (rfl)
@[simp] theorem returnToHost_expLen (b : Byte) : (returnToHost b s).expLen = s.expLen := (rfl)
@[simp] theorem returnToHost_deadline (b : Byte) : (returnToHost b s).deadline = s.deadline := (rfl)
@[simp] theorem returnToHost_rxq (b : Byte) : (returnToHost b s).rxq = s.rxq := (rfl)
@[simp] theorem returnToHost_now (b : Byte) : (returnToHost b s).now = s.now := (rfl)
@[simp] theorem returnToHost_line (b : Byte) : (returnToHost b s).line = s.line := (rfl)
@[simp] theorem returnToHost_hostReads (b : Byte) : (returnToHost b s).hostReads = s.hostReads ++ [b] := (rfl)
@[simp] theorem returnToHost_upcoming (b : Byte) : (returnToHost b s).upcoming = s.upcoming := (rfl)
@[simp] theorem returnToHost_draws (b : Byte) : (returnToHost b s).draws = s.draws := (rfl)

/-! ### platformReset -/

@[simp] theorem platformReset_status : (platformReset s).status = State.reset.status := (rfl)
@[simp] theorem platformReset_result : (platformReset s).result = State.reset.result := (rfl)
@[simp] theorem platformReset_fsm : (platformReset s).fsm = State.reset.fsm := (rfl)
@[simp] theorem platformReset_reqId : (platformReset s).reqId = State.reset.reqId := (rfl)
@[simp] theorem platformReset_reqCmd : (platformReset s).reqCmd = State.reset.reqCmd := (rfl)
@[simp] theorem platformReset_reqNparam : (platformReset s).reqNparam = State.reset.reqNparam := (rfl)
@[simp] theorem platformReset_reqParam : (platformReset s).reqParam = State.reset.reqParam := (rfl)
@[simp] theorem platformReset_txlen : (platformReset s).txlen = State.reset.txlen := (rfl)
@[simp] theorem platformReset_txbuf : (platformReset s).txbuf = State.reset.txbuf := (rfl)
@[simp] theorem platformReset_rxcnt : (platformReset s).rxcnt = State.reset.rxcnt := (rfl)
@[simp] theorem platformReset_rxbuf : (platformReset s).rxbuf = State.reset.rxbuf := (rfl)
@[simp] theorem platformReset_echoRem : (platformReset s).echoRem = State.reset.echoRem := (rfl)
@[simp] theorem platformReset_expLen : (platformReset s).expLen = State.reset.expLen := (rfl)
@[simp] theorem platformReset_deadline : (platformReset s).deadline = State.reset.deadline := (rfl)
@[simp] theorem platformReset_rxq : (platformReset s).rxq = s.rxq := (rfl)
@[simp] theorem platformReset_now : (platformReset s).now = s.now := (rfl)
@[simp] theorem platformReset_line : (platformReset s).line = s.line := (rfl)
@[simp] theorem platformReset_hostReads : (platformReset s).hostReads = s.hostReads := (rfl)
@[simp] theorem platformReset_upcoming : (platformReset s).upcoming = s.upcoming := (rfl)
@[simp] theorem platformReset_draws : (platformReset s).draws = s.draws := (rfl)

/-! ### appendRx -/

@[simp] theorem appendRx_status (bytes : List Byte) : (appendRx bytes s).status = s.status := (rfl)
@[simp] theorem appendRx_result (bytes : List Byte) : (appendRx bytes s).result = s.result := (rfl)
@[simp] theorem appendRx_fsm (bytes : List Byte) : (appendRx bytes s).fsm = s.fsm := (rfl)
@[simp] theorem appendRx_reqId (bytes : List Byte) : (appendRx bytes s).reqId = s.reqId := (rfl)
@[simp] theorem appendRx_reqCmd (bytes : List Byte) : (appendRx bytes s).reqCmd = s.reqCmd := (rfl)
@[simp] theorem appendRx_reqNparam (bytes : List Byte) : (appendRx bytes s).reqNparam = s.reqNparam := (rfl)
@[simp] theorem appendRx_reqParam (bytes : List Byte) : (appendRx bytes s).reqParam = s.reqParam := (rfl)
@[simp] theorem appendRx_txlen (bytes : List Byte) : (appendRx bytes s).txlen = s.txlen := (rfl)
@[simp] theorem appendRx_txbuf (bytes : List Byte) : (appendRx bytes s).txbuf = s.txbuf := (rfl)
@[simp] theorem appendRx_rxcnt (bytes : List Byte) : (appendRx bytes s).rxcnt = BitVec.ofNat 8 (s.rxcnt.toNat + bytes.length) := (rfl)
@[simp] theorem appendRx_echoRem (bytes : List Byte) : (appendRx bytes s).echoRem = s.echoRem := (rfl)
@[simp] theorem appendRx_expLen (bytes : List Byte) : (appendRx bytes s).expLen = s.expLen := (rfl)
@[simp] theorem appendRx_deadline (bytes : List Byte) : (appendRx bytes s).deadline = s.deadline := (rfl)
@[simp] theorem appendRx_rxq (bytes : List Byte) : (appendRx bytes s).rxq = s.rxq := (rfl)
@[simp] theorem appendRx_now (bytes : List Byte) : (appendRx bytes s).now = s.now := (rfl)
@[simp] theorem appendRx_line (bytes : List Byte) : (appendRx bytes s).line = s.line := (rfl)
@[simp] theorem appendRx_hostReads (bytes : List Byte) : (appendRx bytes s).hostReads = s.hostReads := (rfl)
@[simp] theorem appendRx_upcoming (bytes : List Byte) : (appendRx bytes s).upcoming = s.upcoming := (rfl)
@[simp] theorem appendRx_draws (bytes : List Byte) : (appendRx bytes s).draws = s.draws := (rfl)

/-! ### shiftRx -/

@[simp] theorem shiftRx_status : (shiftRx s).status = s.status := (rfl)
@[simp] theorem shiftRx_result : (shiftRx s).result = s.result := (rfl)
@[simp] theorem shiftRx_fsm : (shiftRx s).fsm = s.fsm := (rfl)
@[simp] theorem shiftRx_reqId : (shiftRx s).reqId = s.reqId := (rfl)
@[simp] theorem shiftRx_reqCmd : (shiftRx s).reqCmd = s.reqCmd := (rfl)
@[simp] theorem shiftRx_reqNparam : (shiftRx s).reqNparam = s.reqNparam := (rfl)
@[simp] theorem shiftRx_reqParam : (shiftRx s).reqParam = s.reqParam := (rfl)
@[simp] theorem shiftRx_txlen : (shiftRx s).txlen = s.txlen := (rfl)
@[simp] theorem shiftRx_txbuf : (shiftRx s).txbuf = s.txbuf := (rfl)
@[simp] theorem shiftRx_rxcnt : (shiftRx s).rxcnt = BitVec.ofNat 8 (s.rxcnt.toNat - 1) := (rfl)
@[simp] theorem shiftRx_echoRem : (shiftRx s).echoRem = s.echoRem := (rfl)
@[simp] theorem shiftRx_expLen : (shiftRx s).expLen = s.expLen := (rfl)
@[simp] theorem shiftRx_deadline : (shiftRx s).deadline = s.deadline := (rfl)
@[simp] theorem shiftRx_rxq : (shiftRx s).rxq = s.rxq := (rfl)
@[simp] theorem shiftRx_now : (shiftRx s).now = s.now := (rfl)
@[simp] theorem shiftRx_line : (shiftRx s).line = s.line := (rfl)
@[simp] theorem shiftRx_hostReads : (shiftRx s).hostReads = s.hostReads := (rfl)
@[simp] theorem shiftRx_upcoming : (shiftRx s).upcoming = s.upcoming := (rfl)
@[simp] theorem shiftRx_draws : (shiftRx s).draws = s.draws := (rfl)

/-! ### startEcho -/

@[simp] theorem startEcho_status : (startEcho s).status = s.status := (rfl)
@[simp] theorem startEcho_result : (startEcho s).result = s.result := (rfl)
@[simp] theorem startEcho_fsm : (startEcho s).fsm = .discardingEcho := (rfl)
@[simp] theorem startEcho_reqId : (startEcho s).reqId = s.reqId := (rfl)
@[simp] theorem startEcho_reqCmd : (startEcho s).reqCmd = s.reqCmd := (rfl)
@[simp] theorem startEcho_reqNparam : (startEcho s).reqNparam = s.reqNparam := (rfl)
@[simp] theorem startEcho_reqParam : (startEcho s).reqParam = s.reqParam := (rfl)
@[simp] theorem startEcho_txlen : (startEcho s).txlen = s.txlen := (rfl)
@[simp] theorem startEcho_txbuf : (startEcho s).txbuf = s.txbuf := (rfl)
@[simp] theorem startEcho_rxcnt : (startEcho s).rxcnt = s.rxcnt := (rfl)
@[simp] theorem startEcho_rxbuf : (startEcho s).rxbuf = s.rxbuf := (rfl)
@[simp] theorem startEcho_echoRem : (startEcho s).echoRem = s.txlen := (rfl)
@[simp] theorem startEcho_expLen : (startEcho s).expLen = s.expLen := (rfl)
@[simp] theorem startEcho_deadline : (startEcho s).deadline = s.deadline := (rfl)
@[simp] theorem startEcho_rxq : (startEcho s).rxq = s.rxq := (rfl)
@[simp] theorem startEcho_now : (startEcho s).now = s.now := (rfl)
@[simp] theorem startEcho_line : (startEcho s).line = s.line := (rfl)
@[simp] theorem startEcho_hostReads : (startEcho s).hostReads = s.hostReads := (rfl)
@[simp] theorem startEcho_upcoming : (startEcho s).upcoming = s.upcoming := (rfl)
@[simp] theorem startEcho_draws : (startEcho s).draws = s.draws := (rfl)

/-! ### countEcho -/

@[simp] theorem countEcho_status (k : Nat) : (countEcho k s).status = s.status := (rfl)
@[simp] theorem countEcho_result (k : Nat) : (countEcho k s).result = s.result := (rfl)
@[simp] theorem countEcho_fsm (k : Nat) : (countEcho k s).fsm = s.fsm := (rfl)
@[simp] theorem countEcho_reqId (k : Nat) : (countEcho k s).reqId = s.reqId := (rfl)
@[simp] theorem countEcho_reqCmd (k : Nat) : (countEcho k s).reqCmd = s.reqCmd := (rfl)
@[simp] theorem countEcho_reqNparam (k : Nat) : (countEcho k s).reqNparam = s.reqNparam := (rfl)
@[simp] theorem countEcho_reqParam (k : Nat) : (countEcho k s).reqParam = s.reqParam := (rfl)
@[simp] theorem countEcho_txlen (k : Nat) : (countEcho k s).txlen = s.txlen := (rfl)
@[simp] theorem countEcho_txbuf (k : Nat) : (countEcho k s).txbuf = s.txbuf := (rfl)
@[simp] theorem countEcho_rxcnt (k : Nat) : (countEcho k s).rxcnt = s.rxcnt := (rfl)
@[simp] theorem countEcho_rxbuf (k : Nat) : (countEcho k s).rxbuf = s.rxbuf := (rfl)
@[simp] theorem countEcho_echoRem (k : Nat) : (countEcho k s).echoRem = BitVec.ofNat 8 (s.echoRem.toNat - k) := (rfl)
@[simp] theorem countEcho_expLen (k : Nat) : (countEcho k s).expLen = s.expLen := (rfl)
@[simp] theorem countEcho_deadline (k : Nat) : (countEcho k s).deadline = s.deadline := (rfl)
@[simp] theorem countEcho_rxq (k : Nat) : (countEcho k s).rxq = s.rxq := (rfl)
@[simp] theorem countEcho_now (k : Nat) : (countEcho k s).now = s.now := (rfl)
@[simp] theorem countEcho_line (k : Nat) : (countEcho k s).line = s.line := (rfl)
@[simp] theorem countEcho_hostReads (k : Nat) : (countEcho k s).hostReads = s.hostReads := (rfl)
@[simp] theorem countEcho_upcoming (k : Nat) : (countEcho k s).upcoming = s.upcoming := (rfl)
@[simp] theorem countEcho_draws (k : Nat) : (countEcho k s).draws = s.draws := (rfl)

/-! ### endEcho -/

@[simp] theorem endEcho_status (t : Timing) : (endEcho t s).status = s.status := (rfl)
@[simp] theorem endEcho_result (t : Timing) : (endEcho t s).result = s.result := (rfl)
@[simp] theorem endEcho_fsm (t : Timing) : (endEcho t s).fsm = .awaitingHeader := (rfl)
@[simp] theorem endEcho_reqId (t : Timing) : (endEcho t s).reqId = s.reqId := (rfl)
@[simp] theorem endEcho_reqCmd (t : Timing) : (endEcho t s).reqCmd = s.reqCmd := (rfl)
@[simp] theorem endEcho_reqNparam (t : Timing) : (endEcho t s).reqNparam = s.reqNparam := (rfl)
@[simp] theorem endEcho_reqParam (t : Timing) : (endEcho t s).reqParam = s.reqParam := (rfl)
@[simp] theorem endEcho_txlen (t : Timing) : (endEcho t s).txlen = s.txlen := (rfl)
@[simp] theorem endEcho_txbuf (t : Timing) : (endEcho t s).txbuf = s.txbuf := (rfl)
@[simp] theorem endEcho_rxcnt (t : Timing) : (endEcho t s).rxcnt = s.rxcnt := (rfl)
@[simp] theorem endEcho_rxbuf (t : Timing) : (endEcho t s).rxbuf = s.rxbuf := (rfl)
@[simp] theorem endEcho_echoRem (t : Timing) : (endEcho t s).echoRem = s.echoRem := (rfl)
@[simp] theorem endEcho_expLen (t : Timing) : (endEcho t s).expLen = s.expLen := (rfl)
@[simp] theorem endEcho_deadline (t : Timing) : (endEcho t s).deadline = s.now + t.header := (rfl)
@[simp] theorem endEcho_rxq (t : Timing) : (endEcho t s).rxq = s.rxq := (rfl)
@[simp] theorem endEcho_now (t : Timing) : (endEcho t s).now = s.now := (rfl)
@[simp] theorem endEcho_line (t : Timing) : (endEcho t s).line = s.line := (rfl)
@[simp] theorem endEcho_hostReads (t : Timing) : (endEcho t s).hostReads = s.hostReads := (rfl)
@[simp] theorem endEcho_upcoming (t : Timing) : (endEcho t s).upcoming = s.upcoming := (rfl)
@[simp] theorem endEcho_draws (t : Timing) : (endEcho t s).draws = s.draws := (rfl)

/-! ### startBody -/

@[simp] theorem startBody_status (t : Timing) : (startBody t s).status = s.status := (rfl)
@[simp] theorem startBody_result (t : Timing) : (startBody t s).result = s.result := (rfl)
@[simp] theorem startBody_fsm (t : Timing) : (startBody t s).fsm = .awaitingBody := (rfl)
@[simp] theorem startBody_reqId (t : Timing) : (startBody t s).reqId = s.reqId := (rfl)
@[simp] theorem startBody_reqCmd (t : Timing) : (startBody t s).reqCmd = s.reqCmd := (rfl)
@[simp] theorem startBody_reqNparam (t : Timing) : (startBody t s).reqNparam = s.reqNparam := (rfl)
@[simp] theorem startBody_reqParam (t : Timing) : (startBody t s).reqParam = s.reqParam := (rfl)
@[simp] theorem startBody_txlen (t : Timing) : (startBody t s).txlen = s.txlen := (rfl)
@[simp] theorem startBody_txbuf (t : Timing) : (startBody t s).txbuf = s.txbuf := (rfl)
@[simp] theorem startBody_rxcnt (t : Timing) : (startBody t s).rxcnt = s.rxcnt := (rfl)
@[simp] theorem startBody_rxbuf (t : Timing) : (startBody t s).rxbuf = s.rxbuf := (rfl)
@[simp] theorem startBody_echoRem (t : Timing) : (startBody t s).echoRem = s.echoRem := (rfl)
@[simp] theorem startBody_expLen (t : Timing) : (startBody t s).expLen = BitVec.ofNat 8 (3 + (byteAt s.rxbuf 3).toNat) := (rfl)
@[simp] theorem startBody_deadline (t : Timing) : (startBody t s).deadline = s.now + t.body := (rfl)
@[simp] theorem startBody_rxq (t : Timing) : (startBody t s).rxq = s.rxq := (rfl)
@[simp] theorem startBody_now (t : Timing) : (startBody t s).now = s.now := (rfl)
@[simp] theorem startBody_line (t : Timing) : (startBody t s).line = s.line := (rfl)
@[simp] theorem startBody_hostReads (t : Timing) : (startBody t s).hostReads = s.hostReads := (rfl)
@[simp] theorem startBody_upcoming (t : Timing) : (startBody t s).upcoming = s.upcoming := (rfl)
@[simp] theorem startBody_draws (t : Timing) : (startBody t s).draws = s.draws := (rfl)

end Sys2Proof.Machine
end

