-- ==== Sys2Proof/Laws/Engine.lean ====
section
/-! SUPPORT. What each engine step can do, said once: if it answers a next state, one of the listed cases holds. -/

namespace Sys2Proof.Machine

@[simp] theorem transportWrite_ok (u : Nat) (bytes : List Byte) (s : State) :
    transportWrite (.ok u) bytes s = (some (bytes.length - u), putOnLine (bytes.take (bytes.length - u)) s) := (rfl)

@[simp] theorem transportWrite_err (bytes : List Byte) (s : State) :
    transportWrite .err bytes s = (none, failedWrite s) := (rfl)

@[simp] theorem transportRead_ok (u r : Nat) (s : State) :
    transportRead (.ok u) r s = (some (s.rxq.take r), consume r s) := (rfl)

@[simp] theorem transportRead_err (r : Nat) (s : State) : transportRead .err r s = (none, s) := (rfl)

/-- RXBUF after an append, entry by entry (R151). -/
theorem appendRx_byteAt (bytes : List Byte) (s : State) (i : Nat) (h : i < 16) :
    byteAt (appendRx bytes s).rxbuf i =
      if s.rxcnt.toNat ≤ i ∧ i < s.rxcnt.toNat + bytes.length then bytes.getD (i - s.rxcnt.toNat) 0
      else byteAt s.rxbuf i :=
  byteAt_bufOf _ i h

/-- RXCNT after an append that stays inside RXBUF (R151). -/
theorem appendRx_count {bytes : List Byte} {s : State} (h : s.rxcnt.toNat + bytes.length ≤ 16) :
    (appendRx bytes s).rxcnt.toNat = s.rxcnt.toNat + bytes.length := by
  rw [appendRx_rxcnt, BitVec.toNat_ofNat]
  omega

/-- RXBUF after the shift of `resync()`, entry by entry (R152). -/
theorem shiftRx_byteAt (s : State) (i : Nat) (h : i < 16) :
    byteAt (shiftRx s).rxbuf i =
      if i + 1 < s.rxcnt.toNat then byteAt s.rxbuf (i + 1)
      else if i + 1 = s.rxcnt.toNat then 0
      else byteAt s.rxbuf i :=
  byteAt_bufOf _ i h

/-- RXCNT after the shift of `resync()` (R152). -/
theorem shiftRx_count (s : State) : (shiftRx s).rxcnt.toNat = s.rxcnt.toNat - 1 := by
  rw [shiftRx_rxcnt, BitVec.toNat_ofNat]
  have := s.rxcnt.isLt
  omega

/-- What `resync()` does (R152). -/
theorem resync_cases (s : State) :
    (needsShift s = true ∧ resync s = shiftRx s) ∨ (needsShift s = false ∧ resync s = s) := by
  cases h : needsShift s <;> simp [resync, h]

/-- The SENDING step (R144 to R146): Err, a short write, or the whole frame, with or without an echo to discard. -/
theorem sendingStep_cases {a : Answer} {s t : State} (h : sendingStep a s = .next t) :
    s.txlen.toNat ≤ 16 ∧
    ((a = .err ∧ t = complete ⟨.transportFailure, 1⟩ (failedWrite (transportDiscard s))) ∨
     (∃ u, a = .ok u ∧ s.txlen.toNat - u ≠ s.txlen.toNat ∧
        t = complete ⟨.transportFailure, 2⟩
          (putOnLine (s.txbuf.toList.take (s.txlen.toNat - u)) (transportDiscard s))) ∨
     (∃ u, a = .ok u ∧ s.txlen.toNat - u = s.txlen.toNat ∧ s.status.replyExp = true ∧
        t = startEcho (putOnLine (s.txbuf.toList.take s.txlen.toNat) (transportDiscard s))) ∨
     (∃ u, a = .ok u ∧ s.txlen.toNat - u = s.txlen.toNat ∧ s.status.replyExp = false ∧
        t = complete ⟨.ok, 0⟩ (putOnLine (s.txbuf.toList.take s.txlen.toNat) (transportDiscard s)))) := by
  unfold sendingStep at h
  split at h
  · cases h
  · rename_i hl
    have hl' : s.txlen.toNat ≤ 16 := by simpa [Config.maxFrame] using hl
    have hm : min s.txlen.toNat 16 = s.txlen.toNat := by omega
    refine ⟨hl', ?_⟩
    cases a with
    | err => exact .inl ⟨rfl, (Host.Outcome.next.inj h).symm⟩
    | ok u =>
      refine .inr ?_
      simp only [transportWrite_ok, List.length_take, Vector.length_toList, hm, List.take_take, putOnLine_txlen,
        transportDiscard_txlen, putOnLine_status, transportDiscard_status,
        Nat.min_eq_left (Nat.sub_le s.txlen.toNat u)] at h
      by_cases hc : s.txlen.toNat - u = s.txlen.toNat
      · rw [if_neg (show ¬ (s.txlen.toNat - u ≠ s.txlen.toNat) from not_not_intro hc), hc] at h
        refine .inr ?_
        cases hr : s.status.replyExp
        · rw [if_neg (by simp [hr])] at h
          exact .inr ⟨u, rfl, hc, rfl, (Host.Outcome.next.inj h).symm⟩
        · rw [if_pos hr] at h
          exact .inl ⟨u, rfl, hc, rfl, (Host.Outcome.next.inj h).symm⟩
      · rw [if_pos hc] at h
        exact .inl ⟨u, rfl, hc, (Host.Outcome.next.inj h).symm⟩

/-- The DISCARDING_ECHO step (R147 to R149). -/
theorem echoStep_cases {tm : Timing} {a : Answer} {s t : State} (h : echoStep tm a s = .next t) :
    s.echoRem ≠ 0 ∧
    ((a = .err ∧ t = complete ⟨.transportFailure, 3⟩ s) ∨
     (∃ u r, a = .ok u ∧
        r = countEcho (min s.echoRem.toNat s.rxq.length) (consume s.echoRem.toNat s) ∧
        ((r.echoRem = 0 ∨ s.rxq = []) ∧ t = endEcho tm r ∨
         r.echoRem ≠ 0 ∧ s.rxq ≠ [] ∧ t = r))) := by
  unfold echoStep at h
  split at h
  · cases h
  · rename_i h0
    refine ⟨h0, ?_⟩
    have hne : s.echoRem.toNat ≠ 0 := fun e => h0 (BitVec.eq_of_toNat_eq (by simpa using e))
    cases a with
    | err => exact .inl ⟨rfl, (Host.Outcome.next.inj h).symm⟩
    | ok u =>
      refine .inr ⟨u, _, rfl, rfl, ?_⟩
      have h := Host.Outcome.next.inj h
      have hk : min s.echoRem.toNat s.rxq.length = 0 ↔ s.rxq = [] := by
        rw [← List.length_eq_zero_iff]; omega
      simp only [List.length_take, afterEchoRead, hk] at h
      split at h <;> rename_i hc
      · exact .inl ⟨hc, h.symm⟩
      · exact .inr ⟨fun e => hc (.inl e), fun e => hc (.inr e), h.symm⟩

/-- Header completion (R154, R155). -/
theorem headerComplete_cases (tm : Timing) (s : State) :
    ((byteAt s.rxbuf 3).toNat < 3 ∧ headerComplete tm s = complete ⟨.malformedResponse, 3⟩ s) ∨
    (13 < (byteAt s.rxbuf 3).toNat ∧ headerComplete tm s = complete ⟨.oversizeResponse, 0⟩ s) ∨
    (3 ≤ (byteAt s.rxbuf 3).toNat ∧ (byteAt s.rxbuf 3).toNat ≤ 13 ∧ headerComplete tm s = startBody tm s) := by
  unfold headerComplete
  simp only [implausible_iff, oversize_iff]
  split
  · exact .inl ⟨by assumption, rfl⟩
  · split
    · exact .inr (.inl ⟨by omega, rfl⟩)
    · exact .inr (.inr ⟨by omega, by omega, rfl⟩)

/-- After a header read (R150, R153, R156). -/
theorem afterHeaderRead_cases (tm : Timing) (s : State) :
    (s.rxcnt.toNat = 4 ∧ afterHeaderRead tm s = headerComplete tm s) ∨
    (s.rxcnt.toNat ≠ 4 ∧ s.deadline ≤ s.now ∧ afterHeaderRead tm s = complete ⟨.timeoutAwaitingHeader, 0⟩ s) ∨
    (s.rxcnt.toNat ≠ 4 ∧ s.now < s.deadline ∧ afterHeaderRead tm s = s) := by
  unfold afterHeaderRead
  by_cases hc : s.rxcnt.toNat = 4
  · exact .inl ⟨hc, if_pos hc⟩
  · rw [if_neg (show ¬ s.rxcnt.toNat = Config.hdrBytes from hc)]
    by_cases hd : s.deadline ≤ s.now
    · exact .inr (.inl ⟨hc, hd, if_pos (decide_eq_true hd)⟩)
    · exact .inr (.inr ⟨hc, by omega, if_neg (fun e => hd (of_decide_eq_true e))⟩)

/-- The AWAITING_HEADER step (R150). -/
theorem headerStep_cases {tm : Timing} {a : Answer} {s t : State} (h : headerStep tm a s = .next t) :
    s.rxcnt.toNat < 4 ∧
    ((a = .err ∧ t = complete ⟨.transportFailure, 4⟩ s) ∨
     (∃ u, a = .ok u ∧ t = afterHeaderRead tm
        (resync (appendRx (s.rxq.take (4 - s.rxcnt.toNat)) (consume (4 - s.rxcnt.toNat) s))))) := by
  unfold headerStep at h
  split at h
  · cases h
  · rename_i h0
    refine ⟨by simpa [Config.hdrBytes] using h0, ?_⟩
    cases a with
    | err => exact .inl ⟨rfl, (Host.Outcome.next.inj h).symm⟩
    | ok u => exact .inr ⟨u, rfl, (Host.Outcome.next.inj h).symm⟩

/-- The final decode (R158). -/
theorem finalDecode_cases {s t : State} (h : finalDecode s = .next t) :
    ((∃ f, decodeFrame s.rxbuf s.rxcnt.toNat = .ok f) ∧ t = complete ⟨.ok, 0⟩ s) ∨
    (decodeFrame s.rxbuf s.rxcnt.toNat = .error ⟨.checksumMismatch, 0⟩ ∧ t = complete ⟨.checksumMismatch, 0⟩ s) := by
  unfold finalDecode at h
  split at h
  · rename_i f hf
    exact .inl ⟨⟨f, hf⟩, (Host.Outcome.next.inj h).symm⟩
  · rename_i r hr
    split at h
    · rename_i e
      exact .inr ⟨e ▸ hr, (Host.Outcome.next.inj h).symm⟩
    · cases h

/-- After a body read (R157, R159). -/
theorem afterBodyRead_cases {s t : State} (h : afterBodyRead s = .next t) :
    (s.rxcnt = s.expLen ∧ finalDecode s = .next t) ∨
    (s.rxcnt ≠ s.expLen ∧ s.deadline ≤ s.now ∧ t = complete ⟨.timeoutReadingBody, 0⟩ s) ∨
    (s.rxcnt ≠ s.expLen ∧ s.now < s.deadline ∧ t = s) := by
  unfold afterBodyRead deadlinePassed at h
  split at h
  · exact .inl ⟨by assumption, h⟩
  · split at h <;> rename_i hd
    · exact .inr (.inl ⟨by assumption, of_decide_eq_true hd, (Host.Outcome.next.inj h).symm⟩)
    · exact .inr (.inr ⟨by assumption, by simpa using hd, (Host.Outcome.next.inj h).symm⟩)

/-- The AWAITING_BODY step (R157). -/
theorem bodyStep_cases {a : Answer} {s t : State} (h : bodyStep a s = .next t) :
    s.rxcnt.toNat < s.expLen.toNat ∧
    ((a = .err ∧ t = complete ⟨.transportFailure, 5⟩ s) ∨
     (∃ u bytes, a = .ok u ∧ bytes = s.rxq.take (s.expLen.toNat - s.rxcnt.toNat) ∧
        s.rxcnt.toNat + bytes.length ≤ 16 ∧
        afterBodyRead (appendRx bytes (consume (s.expLen.toNat - s.rxcnt.toNat) s)) = .next t)) := by
  unfold bodyStep at h
  split at h
  · cases h
  · rename_i h0
    refine ⟨by omega, ?_⟩
    cases a with
    | err => exact .inl ⟨rfl, (Host.Outcome.next.inj h).symm⟩
    | ok u =>
      simp only [transportRead_ok, consume_rxcnt] at h
      by_cases hb : Config.maxFrame < s.rxcnt.toNat + (s.rxq.take (s.expLen.toNat - s.rxcnt.toNat)).length
      · rw [if_pos hb] at h; cases h
      · rw [if_neg hb] at h
        exact .inr ⟨u, _, rfl, rfl, Nat.le_of_not_lt hb, h⟩

/-- The engine's turn (R143): no step while BUSY = 0; otherwise the step of the phase. -/
theorem engineStep_cases {tm : Timing} {a : Answer} {s t : State} (h : engineStep tm a s = .next t) :
    (s.status.busy = false ∧ t = s) ∨
    (s.status.busy = true ∧ s.fsm = .sending ∧ sendingStep a s = .next t) ∨
    (s.status.busy = true ∧ s.fsm = .discardingEcho ∧ echoStep tm a s = .next t) ∨
    (s.status.busy = true ∧ s.fsm = .awaitingHeader ∧ headerStep tm a s = .next t) ∨
    (s.status.busy = true ∧ s.fsm = .awaitingBody ∧ bodyStep a s = .next t) := by
  unfold engineStep at h
  cases hb : s.status.busy <;> rw [hb] at h
  · exact .inl ⟨rfl, (Host.Outcome.next.inj h).symm⟩
  · cases hf : s.fsm <;> simp_all

end Sys2Proof.Machine
end

