-- ==== Sys2Proof/Laws/PerInstr.lean ====
section
/-! SUPPORT. One lemma per instruction: its canonical word lies in the row of spec/opcode_table.json that bears its
mnemonic, and its DIR bit says whether it writes (R93). -/

namespace Sys2Proof.Laws

/-- The place of an instruction's row in spec/opcode_table.json. -/
def rowIndex : Instr → Nat
  | .ctrlNop => 0
  | .ctrlEncode => 1
  | .ctrlDecode => 2
  | .ctrlTransact _ => 3
  | .regWrite _ _ => 4
  | .regRead _ => 5

/-- Does the instruction write (DIR = 1, R93). -/
def isWrite : Instr → Bool
  | .ctrlNop => true
  | .ctrlEncode => true
  | .ctrlDecode => true
  | .ctrlTransact _ => true
  | .regWrite _ _ => true
  | .regRead _ => false

/-- DIR is the top bit of the word. -/
theorem accessWord_dir (dir : Bool) (off : Offset) (data : Byte) :
    (accessWord dir off data).getLsbD 14 = dir := by
  change (BitVec.ofBool dir ++ off ++ data).getLsbD 14 = dir
  rw [BitVec.getLsbD_append, BitVec.getLsbD_append]
  cases dir <;> simp

/-- DATA is read back from a word. -/
theorem wordData_accessWord (dir : Bool) (off : Offset) (data : Byte) : wordData (accessWord dir off data) = data := by
  apply BitVec.eq_of_getLsbD_eq
  intro i hi
  simp only [wordData, accessWord, BitVec.getLsbD_extractLsb', BitVec.getLsbD_append]
  simp [hi]

/-- OFF is read back from a word. -/
theorem wordOff_accessWord (dir : Bool) (off : Offset) (data : Byte) : wordOff (accessWord dir off data) = off := by
  apply BitVec.eq_of_getLsbD_eq
  intro i hi
  simp only [wordOff, accessWord, BitVec.getLsbD_extractLsb', BitVec.getLsbD_append]
  simp [hi]

/-- Every word is its three fields. -/
theorem accessWord_parts (w : AccessWord) : accessWord (w.getLsbD 14) (wordOff w) (wordData w) = w := by
  apply BitVec.eq_of_getLsbD_eq
  intro i hi
  simp only [accessWord, wordOff, wordData, BitVec.getLsbD_append, BitVec.getLsbD_extractLsb', BitVec.getLsbD_ofBool]
  rcases Nat.lt_or_ge i 8 with h | h
  · simp [h]
  · rcases Nat.lt_or_ge i 14 with h' | h'
    · have : ¬ i < 8 := by omega
      have h6 : i - 8 < 6 := by omega
      simp [this, h6, show 8 + (i - 8) = i by omega]
    · obtain rfl : i = 14 := by omega
      simp

/-- Is a decoding none of a REG_WRITE. -/
def isCtrl : Except DecodeError Instr → Bool
  | .ok (.regWrite _ _) => false
  | _ => true

/-- The CTRL rows take every write at offset 0x00 (R93, R181). -/
theorem ctrl_rows (data : Byte) : isCtrl (decode (accessWord true 0 data)) = true := by
  revert data
  decide +kernel

/-- The decoder gives a REG_WRITE only where OFF ≠ 0x00 (R181). -/
theorem decode_regWrite_off {w : AccessWord} {off : Offset} {data : Byte} (h : decode w = .ok (.regWrite off data)) :
    off ≠ 0 := by
  have hr : wordOff w = off ∧ w &&& 0x4000 = 0x4000 := by
    unfold decode at h
    split at h
    · rename_i r hf
      have hm := List.find?_some hf
      have hin := List.mem_of_find?_eq_some hf
      simp only [opcodeTable, List.mem_cons, List.not_mem_nil, or_false] at hin
      rcases hin with rfl | rfl | rfl | rfl | rfl | rfl <;> simp only [Except.ok.injEq, reduceCtorEq] at h
      injection h with h1 h2
      exact ⟨h1, by simpa [rowTakes] using hm⟩
    · cases h
  have hd : w.getLsbD 14 = true := by
    have := congrArg (fun v : AccessWord => v.getLsbD 14) hr.2
    simp only [BitVec.getLsbD_and] at this
    simpa using this
  intro h0
  have hc := ctrl_rows (wordData w)
  have hw := accessWord_parts w
  rw [hr.1, hd, h0] at hw
  rw [hw, h] at hc
  cases hc

/-- The mask 0x4000 keeps DIR alone. -/
theorem accessWord_mask (dir : Bool) (off : Offset) (data : Byte) :
    accessWord dir off data &&& 0x4000 = if dir then 0x4000 else 0 := by
  apply BitVec.eq_of_getLsbD_eq
  intro i hi
  rw [BitVec.getLsbD_and]
  by_cases h : i = 14
  · subst h
    rw [accessWord_dir]
    cases dir <;> decide
  · have : (0x4000 : AccessWord).getLsbD i = false := by
      interval_cases i <;> first | rfl | exact absurd rfl h
    rw [this, Bool.and_false]
    cases dir
    · simp
    · exact this.symm

namespace EncodingInRow

/-- The canonical word matches the instruction's own row, and bit 14 is DIR. -/
def Statement (i : Instr) : Prop :=
  (∃ r, opcodeTable[rowIndex i]? = some r ∧ rowTakes r (encode i) = true) ∧
  (encode i).getLsbD 14 = isWrite i

theorem ctrlNop : Statement .ctrlNop := ⟨⟨_, rfl, by decide⟩, by decide⟩
theorem ctrlEncode : Statement .ctrlEncode := ⟨⟨_, rfl, by decide⟩, by decide⟩
theorem ctrlDecode : Statement .ctrlDecode := ⟨⟨_, rfl, by decide⟩, by decide⟩
theorem ctrlTransact (want : Bool) : Statement (.ctrlTransact want) := by
  cases want <;> exact ⟨⟨_, rfl, by decide⟩, by decide⟩

theorem regWrite (off : Offset) (data : Byte) : Statement (.regWrite off data) :=
  ⟨⟨_, rfl, by simpa [rowTakes, encode] using accessWord_mask true off data⟩, accessWord_dir true off data⟩

theorem regRead (off : Offset) : Statement (.regRead off) :=
  ⟨⟨_, rfl, by simpa [rowTakes, encode] using accessWord_mask false off 0⟩, accessWord_dir false off 0⟩

end EncodingInRow

end Sys2Proof.Laws
end

