-- ==== Sys2Proof/Laws/Registers.lean ====
section
/-! SUPPORT. The register map and what a host write can do. -/

namespace Sys2Proof.Machine

/-- A named register stands at its offset (R20). -/
theorem regAt_offsetOf (r : Reg) : regAt (offsetOf r) = r := by
  cases r with
  | reqParam i => revert i; decide
  | txbuf i => revert i; decide
  | rxbuf i => revert i; decide
  | _ => rfl

/-- Where the command port, RXCNT and RXBUF stand (R20). -/
theorem regAt_special (off : Offset) :
    (regAt off = .ctrl → off.toNat = 0) ∧ (regAt off = .rxcnt → off.toNat = 8) ∧
    ∀ j, regAt off = .rxbuf j → 0x30 ≤ off.toNat := by
  revert off
  decide +kernel

/-- The host never writes outside the request registers, RXCNT, RXBUF and the command port (R181, R185): for every
other register the state is unchanged. -/
theorem writeReg_readOnly (v : Byte) (s : State) (r : Reg)
    (h : r = .status ∨ r = .result ∨ r = .fsmState ∨ r = .txlen ∨ r = .echoRem ∨ r = .expLen ∨ r = .reserved ∨
      ∃ i, r = .txbuf i) : writeReg v s r = s := by
  rcases h with rfl | rfl | rfl | rfl | rfl | rfl | rfl | ⟨i, rfl⟩ <;> rfl

/-- What a host write can do: nothing, a command-port write, a request-register write, or, while BUSY = 0, a write
of RXCNT or RXBUF (R181). -/
theorem writeReg_cases (v : Byte) (s : State) (r : Reg) :
    writeReg v s r = s ∨
    (r = .ctrl ∧ writeReg v s r = ctrlWrite v s) ∨
    (r = .reqId ∧ writeReg v s r = { s with reqId := v }) ∨
    (r = .reqCmd ∧ writeReg v s r = { s with reqCmd := v }) ∨
    (r = .reqNparam ∧ writeReg v s r = { s with reqNparam := v }) ∨
    (∃ i, r = .reqParam i ∧ writeReg v s r = { s with reqParam := s.reqParam.set i v }) ∨
    (s.status.busy = false ∧ r = .rxcnt ∧ writeReg v s r = { s with rxcnt := v }) ∨
    (s.status.busy = false ∧ ∃ i, r = .rxbuf i ∧ writeReg v s r = { s with rxbuf := s.rxbuf.set i v }) := by
  cases hb : s.status.busy <;> cases r <;> simp [writeReg, whenIdle, hb]

/-- What a start of a command can do: it is turned away, or it is accepted and the command runs (R183, R184). -/
theorem guardedStart_cases (c : State → State) (s : State) :
    (s.status.busy = true ∧ guardedStart c s = rejectStart s) ∨
    (s.status.busy = false ∧ guardedStart c s = c (acceptStart s)) := by
  cases h : s.status.busy <;> simp [guardedStart, h]

/-- What a CTRL write can do: nothing, or the start of one of the three commands (R182 to R184). -/
theorem ctrlWrite_cases (v : Byte) (s : State) :
    ctrlWrite v s = s ∨ ctrlWrite v s = guardedStart encodeCommand s ∨
    ctrlWrite v s = guardedStart decodeCommand s ∨
    ctrlWrite v s = guardedStart (transactCommand (v.getLsbD 2)) s := by
  unfold ctrlWrite
  split <;> simp

/-- What ENCODE does after its start (R116). -/
theorem encodeCommand_cases (s : State) :
    (∃ f, encodeRequest s = .ok f ∧ encodeCommand s = complete ⟨.ok, 0⟩ (loadFrame f s)) ∨
    (∃ r, encodeRequest s = .error r ∧ encodeCommand s = complete r (loadFrame [] s)) := by
  unfold encodeCommand
  cases h : encodeRequest s <;> simp

/-- What DECODE does after its start (R117): one completion, with RESULT and EXP_LEN the only data written. -/
theorem decodeCommand_cases (s : State) :
    (16 < s.rxcnt.toNat ∧ decodeCommand s = complete ⟨.invalidRequest, 3⟩ { s with expLen := 0 }) ∨
    (s.rxcnt.toNat ≤ 16 ∧ decodeCommand s =
      complete (raisedBy (decodeFrame s.rxbuf s.rxcnt.toNat))
        { s with expLen := if declaresLength (decodeFrame s.rxbuf s.rxcnt.toNat)
                           then BitVec.ofNat 8 (3 + (byteAt s.rxbuf 3).toNat) else 0 }) := by
  unfold decodeCommand
  by_cases h : Config.maxFrame < s.rxcnt.toNat
  · exact .inl ⟨h, by simp [h]⟩
  · exact .inr ⟨by simpa [Config.maxFrame] using h, by simp [h]⟩

/-- What TRANSACT does after its start (R140). -/
theorem transactCommand_cases (want : Bool) (s : State) :
    (∃ r, encodeRequest s = .error r ∧ transactCommand want s = complete r (sessionInit s)) ∨
    (∃ f, encodeRequest s = .ok f ∧ transactCommand want s =
      { loadFrame f (sessionInit s) with
        status := statusOnTransact (expectsReply want s) s.status
        fsm := .sending }) := by
  unfold transactCommand
  cases h : encodeRequest s <;> simp

end Sys2Proof.Machine
end

