-- ==== Sys2Proof/Laws/Agents.lean ====
section
/-! SUPPORT. What one agent step can do, said once, and how a run is taken apart. -/

namespace Sys2Proof.Machine

/-- What a host access can do (R93, R180, R181): a read, a register write, or a CTRL command. -/
theorem exec_cases {i : Instr} {s t : State} (h : exec i s = .next t) :
    (i = .ctrlNop ∧ t = s) ∨
    (i = .ctrlEncode ∧ t = guardedStart encodeCommand s) ∨
    (i = .ctrlDecode ∧ t = guardedStart decodeCommand s) ∨
    (∃ want, i = .ctrlTransact want ∧ t = guardedStart (transactCommand want) s) ∨
    (∃ off data, i = .regWrite off data ∧ t = writeReg data s (regAt off)) ∨
    (∃ off, i = .regRead off ∧ t = returnToHost (regRead s off) s) := by
  cases i with
  | ctrlNop => exact .inl ⟨rfl, (Host.Outcome.next.inj h).symm⟩
  | ctrlEncode => exact .inr (.inl ⟨rfl, (Host.Outcome.next.inj h).symm⟩)
  | ctrlDecode => exact .inr (.inr (.inl ⟨rfl, (Host.Outcome.next.inj h).symm⟩))
  | ctrlTransact want => exact .inr (.inr (.inr (.inl ⟨want, rfl, (Host.Outcome.next.inj h).symm⟩)))
  | regWrite off data => exact .inr (.inr (.inr (.inr (.inl ⟨off, data, rfl, (Host.Outcome.next.inj h).symm⟩))))
  | regRead off => exact .inr (.inr (.inr (.inr (.inr ⟨off, rfl, (Host.Outcome.next.inj h).symm⟩))))

/-- What one agent step can do (R5). -/
theorem perform_cases {tm : Timing} {e : Event} {s t : State} (h : perform tm e s = .next t) :
    (∃ w i, e = .access w ∧ decode w = .ok i ∧ exec i s = .next t) ∨
    (∃ a, e = .engine a ∧ engineStep tm a s = .next t) ∨
    (∃ b, e = .arrive b ∧ t = arrive b s) ∨
    (e = .tick ∧ t = tick s) ∨
    (e = .reset ∧ t = platformReset s) := by
  cases e with
  | access w =>
    simp only [perform, hostStep] at h
    split at h
    · rename_i i hi
      exact .inl ⟨w, i, rfl, hi, h⟩
    · cases h
  | engine a => exact .inr (.inl ⟨a, rfl, h⟩)
  | arrive b => exact .inr (.inr (.inl ⟨b, rfl, (Host.Outcome.next.inj h).symm⟩))
  | tick => exact .inr (.inr (.inr (.inl ⟨rfl, (Host.Outcome.next.inj h).symm⟩)))
  | reset => exact .inr (.inr (.inr (.inr ⟨rfl, (Host.Outcome.next.inj h).symm⟩)))

/-- What a quiet event other than an engine turn can do. -/
theorem quiet_cases {tm : Timing} {e : Event} {s t : State} (hq : isQuiet e = true) (hn : isEngine e = false)
    (h : perform tm e s = .next t) :
    s.now ≤ t.now ∧
    t = { s with
      reqId := t.reqId, reqCmd := t.reqCmd, reqNparam := t.reqNparam, reqParam := t.reqParam,
      hostReads := t.hostReads, now := t.now, rxq := s.rxq ++ arrivals [e] } := by
  rcases perform_cases h with ⟨w, i, rfl, hd, h⟩ | ⟨a, rfl, _⟩ | ⟨b, rfl, rfl⟩ | ⟨rfl, rfl⟩ | ⟨rfl, _⟩
  · simp only [isQuiet, isQuietAccess, hd] at hq
    rcases exec_cases h with ⟨rfl, rfl⟩ | ⟨rfl, _⟩ | ⟨rfl, _⟩ | ⟨u, rfl, _⟩ | ⟨off, data, rfl, rfl⟩ | ⟨off, rfl, rfl⟩
    · simp [arrivals]
    · cases hq
    · cases hq
    · cases hq
    · have h0 := Sys2Proof.Laws.decode_regWrite_off hd
      simp only [Bool.and_eq_true, bne_iff_ne, decide_eq_true_eq] at hq
      have h0' : off.toNat ≠ 0 := fun e => h0 (BitVec.eq_of_toNat_eq e)
      have hr := regAt_special off
      rcases writeReg_cases data s (regAt off) with e | ⟨e, _⟩ | ⟨_, e⟩ | ⟨_, e⟩ | ⟨_, e⟩ | ⟨_, _, e⟩ | ⟨_, e, _⟩ | ⟨_, j, e, _⟩
      · rw [e]; simp [arrivals]
      · exact absurd (hr.1 e) h0'
      · rw [e]; simp [arrivals]
      · rw [e]; simp [arrivals]
      · rw [e]; simp [arrivals]
      · rw [e]; simp [arrivals]
      · exact absurd (hr.2.1 e) hq.1
      · have := hr.2.2 j e; omega
    · simp [arrivals, returnToHost]
  · cases hn
  · simp [arrivals, Sys2Proof.Machine.arrive]
  · simp [arrivals, Sys2Proof.Machine.tick]
  · cases hq
/-- Taking the next agent step off changes only the model's own fields. -/
theorem nextEvent_cases (s : State) :
    (∃ e rest, s.upcoming = e :: rest ∧ nextEvent s = (e, { s with upcoming := rest })) ∨
    (s.upcoming = [] ∧ nextEvent s = (Config.freeEvent s.draws, { s with draws := s.draws + 1 })) := by
  unfold nextEvent
  cases h : s.upcoming with
  | nil => simp
  | cons e rest => exact .inl ⟨e, rest, rfl, rfl⟩

/-- One step is the next agent's step (R6). -/
theorem step_cases {s t : State} (h : step s = .next t) :
    (∃ e rest, s.upcoming = e :: rest ∧ perform Config.timing e { s with upcoming := rest } = .next t) ∨
    (s.upcoming = [] ∧
      perform Config.timing (Config.freeEvent s.draws) { s with draws := s.draws + 1 } = .next t) := by
  unfold step at h
  rcases nextEvent_cases s with ⟨e, rest, hu, hn⟩ | ⟨hu, hn⟩ <;> rw [hn] at h
  · exact .inl ⟨e, rest, hu, h⟩
  · exact .inr ⟨hu, h⟩

/-- A run that starts with an event goes through the state after it. -/
theorem performAll_cons {tm : Timing} {e : Event} {es : List Event} {s t : State} :
    performAll tm (e :: es) s = .next t ↔ ∃ u, perform tm e s = .next u ∧ performAll tm es u = .next t := by
  simp only [performAll]
  cases perform tm e s <;> simp

/-- A run of two runs goes through a state between them. -/
theorem performAll_append {tm : Timing} {es fs : List Event} {s t : State} :
    performAll tm (es ++ fs) s = .next t ↔
      ∃ u, performAll tm es s = .next u ∧ performAll tm fs u = .next t := by
  induction es generalizing s with
  | nil => simp [performAll]
  | cons e es ih =>
    rw [List.cons_append, performAll_cons]
    constructor
    · rintro ⟨u, hu, ht⟩
      obtain ⟨v, hv, ht⟩ := ih.mp ht
      exact ⟨v, performAll_cons.mpr ⟨u, hu, hv⟩, ht⟩
    · rintro ⟨v, hv, ht⟩
      obtain ⟨u, hu, hv⟩ := performAll_cons.mp hv
      exact ⟨u, hu, ih.mpr ⟨v, hv, ht⟩⟩

/-- A run's trace, one agent step at a time. -/
theorem runTrace_cons {tm : Timing} {e : Event} {es : List Event} {s u : State} (h : perform tm e s = .next u) :
    runTrace tm (e :: es) s = (e, s) :: runTrace tm es u := by
  simp [runTrace, h]

/-- The trace of two runs in a row. -/
theorem runTrace_append {tm : Timing} {es fs : List Event} {s u : State} (h : performAll tm es s = .next u) :
    runTrace tm (es ++ fs) s = runTrace tm es s ++ runTrace tm fs u := by
  induction es generalizing s with
  | nil => cases h; rfl
  | cons e es ih =>
    obtain ⟨v, hv, h⟩ := performAll_cons.mp h
    rw [List.cons_append, runTrace_cons hv, runTrace_cons hv, ih h, List.cons_append]

/-- The arrivals of two runs in a row. -/
theorem arrivals_append (es fs : List Event) : arrivals (es ++ fs) = arrivals es ++ arrivals fs := by
  induction es with
  | nil => rfl
  | cons e es ih => cases e <;> simp [arrivals, ih]

/-- The timing parameters are legal, whatever they are (R8). -/
theorem timing_legal : Config.timing.Legal := by
  simp only [Timing.Legal, Config.timing]
  omega

end Sys2Proof.Machine
end

