-- ==== Sys2Proof/Laws/Host.lean ====
section
/-! SUPPORT. The host operations keep the shapes of the command table, and what a command of the table issues. -/

namespace Sys2Proof.Machine

/-- A command of the table issues its code and its W (R208, R210). -/
theorem issueCommand_eq {α : Type} (codes : CommandCodes) (id : Byte) (c : ServoCommand) (params : List Byte)
    (next : Byte → HostProgram α) :
    issueCommand codes id c params next = issue id (commandCode codes c) params (commandShape c).wantReply next := (rfl)

/-- A command has a reply in the table exactly when W is 1 for it (R208, R210). -/
theorem wantReply_iff_reply (c : ServoCommand) : (commandShape c).wantReply = (commandShape c).reply.isSome := by
  cases c <;> rfl

/-- Every read command takes no parameter (R208, D42). -/
theorem read_takes_no_parameter (c : ServoCommand) (h : (commandShape c).wantReply = true) :
    (commandShape c).request = .fixed 0 := by
  cases c <;> first | rfl | cases h

/-- The five payloads have the table's number of parameters (R203 to R207). -/
theorem payloads_fit (p t : Word16) (enabled cont : Bool) (speed : Word16) :
    fitsRequest .moveTimeWrite (moveTimePayload p t) = true ∧ fitsRequest .posRead [] = true ∧
    fitsRequest .loadOrUnloadWrite (torquePayload enabled) = true ∧
    fitsRequest .angleLimitWrite (angleLimitsPayload p t) = true ∧
    fitsRequest .motorModeWrite (modePayload cont speed) = true :=
  ⟨rfl, rfl, rfl, rfl, rfl⟩

/-- A speed is sent as its own 16 bits, whatever its sign (R202, R228). -/
theorem modePayload_eq (cont : Bool) (speed : Word16) :
    modePayload cont speed = [if cont then 0x01 else 0x00, 0x00] ++ u16le speed := by
  simp [modePayload, i16le]

/-- The shape test of `decode_position_reply` is the table's reply shape (R204, R208, R225). -/
theorem posRead_reply_fits (l : Byte) : fitsReply .posRead (l.toNat - 3) = true ↔ (l.toNat : Int) - 3 = 2 := by
  simp only [fitsReply, commandShape, readShape, fitsCount, beq_iff_eq]
  omega

end Sys2Proof.Machine
end

