-- ==== Sys2Proof/Tests/Slice0.lean ====
section
/-! SUPPORT. The model's own tests. Expected values are those of spec/95_test_vectors.md, named in each comment; where
no vector is named, the value is worked out by hand from the rule named. The witnesses show, for each statement with
hypotheses, a state and operands that meet them. -/

namespace Sys2Proof.Tests

open Sys2Proof.Machine

/-! ### Helpers -/

/-- The state an outcome goes on to. -/
def after (o : Host.Outcome State Fault Refusal) : State :=
  match o with
  | .next s => s
  | .fault _ => State.reset
  | .refused _ => State.reset

/-- Does an outcome go on to this state. -/
def goesTo (o : Host.Outcome State Fault Refusal) (t : State) : Bool :=
  match o with
  | .next s => s == t
  | .fault _ => false
  | .refused _ => false

theorem eq_next {o : Host.Outcome State Fault Refusal} {t : State} (h : goesTo o t = true) : o = .next t := by
  cases o with
  | next s => exact congrArg _ (eq_of_beq h)
  | fault _ => cases h
  | refused _ => cases h

/-- Does an outcome go on. -/
def runs (o : Host.Outcome State Fault Refusal) : Bool :=
  match o with
  | .next _ => true
  | .fault _ => false
  | .refused _ => false

theorem exists_next {o : Host.Outcome State Fault Refusal} (h : runs o = true) : ∃ t, o = .next t := by
  cases o with
  | next s => exact ⟨s, rfl⟩
  | fault _ => cases h
  | refused _ => cases h

/-- The reset state with a request loaded. -/
def request (id cmd n : Byte) : State := { State.reset with reqId := id, reqCmd := cmd, reqNparam := n }

/-- The reset state with received bytes loaded. -/
def loaded (bytes : List Byte) : State :=
  { State.reset with rxbuf := bufOfList bytes, rxcnt := BitVec.ofNat 8 bytes.length }

/-- A position read of id 1 in flight, in its SENDING phase. -/
def sending : State := after (exec (.ctrlTransact true) (request 0x01 0x1C 0x00))

/-- The same after a whole write. -/
def echoing : State := after (engineStep Config.referenceTiming (.ok 0) sending)

/-- The same in its header phase, the echo having been discarded. -/
def awaitingHeader : State :=
  after (engineStep Config.referenceTiming (.ok 0) { echoing with rxq := [0x55, 0x55, 0x01, 0x03, 0x1C, 0xDF] })

/-- The same in its body phase, with the rest of the reply still to come. -/
def awaitingBody : State :=
  after (engineStep Config.referenceTiming (.ok 0) { awaitingHeader with rxq := [0x55, 0x55, 0x01, 0x05] })

/-- The shortest legal deadlines. -/
def fastTiming : Timing := ⟨1, 2, 1, 1⟩

/-- An engine turn with a transport that does not fail. -/
def turn : Event := Event.engine (Answer.ok 0)

/-- `REPLY` of spec/95_test_vectors.md. -/
def reply : List Byte := [0x55, 0x55, 0x01, 0x05, 0x1C, 0xE8, 0x03, 0xF2]

/-! ### WellFormed -/

/-- OFF = 0x00 is a CTRL row's word, no REG_WRITE (R181). -/
theorem test_wellFormed_refuses_regWrite_at_ctrl : (Instr.regWrite 0x00 0x05).wellFormed = false := by decide

theorem test_wellFormed_accepts_regWrite : (Instr.regWrite 0x3F 0x05).wellFormed = true := by decide

/-! ### Decoding: words written out from R81 and R93 as DIR, OFF, DATA -/

/-- DIR 1, OFF 000000, DATA 11111100: the reserved bits and W do not matter (R92). -/
theorem test_decode_nop : decode (0b1#1 ++ 0b000000#6 ++ 0b11111100#8) = .ok .ctrlNop := by decide

theorem test_decode_encode : decode (0b1#1 ++ 0b000000#6 ++ 0b00000001#8) = .ok .ctrlEncode := by decide

theorem test_decode_decode : decode (0b1#1 ++ 0b000000#6 ++ 0b00000010#8) = .ok .ctrlDecode := by decide

/-- `WR CTRL, 0x07` is 0x4007 (R93). -/
theorem test_decode_transact_with_reply : decode 0x4007 = .ok (.ctrlTransact true) := by decide

theorem test_decode_transact_without_reply :
    decode (0b1#1 ++ 0b000000#6 ++ 0b00000011#8) = .ok (.ctrlTransact false) := by decide

/-- `WR REQ_ID, 0x01` is 0x4401 (R93). -/
theorem test_decode_regWrite : decode 0x4401 = .ok (.regWrite 0x04 0x01) := by decide

/-- `RD STATUS` is 0x0100 (R93). -/
theorem test_decode_regRead : decode 0x0100 = .ok (.regRead 0x01) := by decide

/-- DIR 0, OFF 101111, DATA ignored (R180). -/
theorem test_decode_regRead_ignores_data :
    decode (0b0#1 ++ 0b101111#6 ++ 0b10100101#8) = .ok (.regRead 0x2F) := by decide

/-- The container's bit 15 is no part of an access word. -/
theorem test_decodeBytes_refuses_bit15 : decodeBytes 0x00 0xC0 = .error .widerThanAccessWord := by decide

theorem test_decodeStream_refuses_one_byte : decodeStream [0x01] = .error .tooFewBytes := by decide

/-- Each row's own word through the host's reading of the table. -/
theorem test_decodeTableWord :
    decodeTableWord 16 0x4000 = some .ctrlNop ∧ decodeTableWord 16 0x4001 = some .ctrlEncode ∧
    decodeTableWord 16 0x4002 = some .ctrlDecode ∧ decodeTableWord 16 0x4003 = some (.ctrlTransact false) ∧
    decodeTableWord 16 0x4401 = some (.regWrite 0x04 0x01) ∧ decodeTableWord 16 0x0000 = some (.regRead 0x00) := by
  decide

/-- A placed access is the very next step. -/
theorem test_withFetchWord_runs :
    step (State.reset.withFetchWord 16 0x4401) = .next { State.reset with reqId := 0x01 } := eq_next (by decide)

/-! ### Instructions, one step each -/

/-- R182: a NOP in flight leaves everything as it is. -/
theorem test_nop_in_flight : exec .ctrlNop sending = .next sending := eq_next (by decide)

/-- V-CODEC-20. -/
theorem test_encode_builds_frame :
    (after (exec .ctrlEncode (request 0x01 0x1C 0x00))).txbuf = bufOfList [0x55, 0x55, 0x01, 0x03, 0x1C, 0xDF] ∧
    statusByte (after (exec .ctrlEncode (request 0x01 0x1C 0x00))).status = 0x02 := by decide

/-- V-CODEC-27: DETAIL 1 wins over DETAIL 2. -/
theorem test_encode_refuses_count_first : (after (exec .ctrlEncode (request 0xFF 0x00 0x0B))).result = 0x17 := by decide

/-- The reply of L1-5 decodes, and EXP_LEN is its length. -/
theorem test_decode_accepts_reply :
    (after (exec .ctrlDecode (loaded reply))).result = 0x00 ∧ (after (exec .ctrlDecode (loaded reply))).expLen = 8 := by
  decide

/-- R117 and R114: the same reply with its last byte missing has fewer bytes than it declares. -/
theorem test_decode_reports_short_frame : (after (exec .ctrlDecode (loaded (reply.take 7)))).result = 0x45 := by decide

/-- R140, R141: a TRANSACT with W = 1 to a single device is in flight with REPLY_EXP set. -/
theorem test_transact_starts : statusByte sending.status = 0x09 ∧ sending.fsm = .sending ∧ sending.txlen = 6 := by decide

/-- R140, R113: id 255 completes the TRANSACT at its start. -/
theorem test_transact_refuses_id_255 :
    (after (exec (.ctrlTransact true) (request 0xFF 0x1C 0x00))).result = 0x27 ∧
    statusByte (after (exec (.ctrlTransact true) (request 0xFF 0x1C 0x00))).status = 0x02 := by decide

/-- R181: an out-of-range count is stored as it is. -/
theorem test_regWrite_stores_any_byte : (after (exec (.regWrite 0x06 200) State.reset)).reqNparam = 200 := by decide

/-- R186: RXBUF[15] is not written while a TRANSACT is in flight. -/
theorem test_regWrite_rxbuf_in_flight : exec (.regWrite 0x3F 0xAA) sending = .next sending := eq_next (by decide)

/-- R180: STATUS in flight reads BUSY and REPLY_EXP. -/
theorem test_regRead_status : (after (exec (.regRead 0x01) sending)).hostReads = [0x09] := by decide

/-- R180: TXBUF[5] holds the checksum of V-CODEC-20. -/
theorem test_regRead_txbuf : (after (exec (.regRead 0x25) sending)).hostReads = [0xDF] := by decide

/-! ### Engine steps -/

/-- R147's example: six echo bytes are dropped and the seventh stays. -/
theorem test_echo_takes_its_count :
    (after (engineStep Config.referenceTiming (.ok 0)
      { echoing with rxq := [0x55, 0x55, 0x01, 0x03, 0x1C, 0xDF, 0x55] })).rxq = [0x55] := by decide

/-- R152: four bytes without a header are shifted by one. -/
theorem test_header_resync :
    (after (engineStep Config.referenceTiming (.ok 0)
      { awaitingHeader with rxq := [0xAA, 0x55, 0x55, 0x01] })).rxbuf = bufOfList [0x55, 0x55, 0x01] := by decide

/-- R156: the header deadline, T_HEADER_MS = 50 after the echo. -/
theorem test_header_timeout :
    (after (engineStep Config.referenceTiming (.ok 0) { awaitingHeader with now := 50 })).result = 0x02 ∧
    (after (engineStep Config.referenceTiming (.ok 0) { awaitingHeader with now := 49 })).fsm = .awaitingHeader := by
  decide

/-- R158: the rest of REPLY completes the TRANSACT with OK. -/
theorem test_body_completes :
    (after (engineStep Config.referenceTiming (.ok 0) { awaitingBody with rxq := [0x1C, 0xE8, 0x03, 0xF2] })).result = 0 ∧
    (after (engineStep Config.referenceTiming (.ok 0) { awaitingBody with rxq := [0x1C, 0xE8, 0x03, 0xF2] })).rxbuf =
      bufOfList reply := by decide

/-- R158: a wrong checksum. -/
theorem test_body_checksum :
    (after (engineStep Config.referenceTiming (.ok 0) { awaitingBody with rxq := [0x1C, 0xE8, 0x03, 0xF3] })).result = 4 := by
  decide

/-! ### Host software -/

/-- L1-6, and the angles 135, 45, −5 and 250 degrees by R221: 563, 188, 0 and 1000. -/
theorem test_pos :
    pos 0x0000000000000000 = some 0 ∧ pos 0x405E000000000000 = some 500 ∧ pos 0x406E000000000000 = some 1000 ∧
    pos 0x4060E00000000000 = some 563 ∧ pos 0x4046800000000000 = some 188 ∧ pos 0xC014000000000000 = some 0 ∧
    pos 0x406F400000000000 = some 1000 := by decide +kernel

/-- V-HOST-15: both orders of the limits 45 and 135 degrees send BC 00 33 02 (L1-10). -/
theorem test_angleLimits : angleLimitsPayload 188 563 = [0xBC, 0x00, 0x33, 0x02] := by decide

/-- R207's example, speed −1, and the two ends of an i16 (R202, R228). -/
theorem test_mode_speed :
    modePayload true (-1) = [0x01, 0x00, 0xFF, 0xFF] ∧ modePayload false (-32768) = [0x00, 0x00, 0x00, 0x80] ∧
    modePayload true 32767 = [0x01, 0x00, 0xFF, 0x7F] := by decide

/-- Rows of the table of R208 that no payload rule covers: stop, angle-offset save, a read, an id write. -/
theorem test_commandShape :
    commandShape .moveStop = ⟨.fixed 0, false, none⟩ ∧ commandShape .angleOffsetWrite = ⟨.fixed 0, false, none⟩ ∧
    commandShape .vinRead = ⟨.fixed 0, true, some .notInSource⟩ ∧
    commandShape .idWrite = ⟨.notInSource, false, none⟩ ∧ commandCode Config.referenceCodes .vinRead = 0x1B := by decide

/-! ### Witnesses: hypotheses of the statements that can be met -/

theorem witness_EncodedInstructionDecodesBack :
    (Instr.ctrlTransact true).wellFormed = true ∧ (Instr.regWrite 0x3F 0xFF).wellFormed = true ∧
    (Instr.regWrite 0x01 0x00).wellFormed = true ∧ (Instr.regRead 0x00).wellFormed = true := by
  and_intros <;> decide

theorem witness_IgnoredBitsDoNotChangeInstruction :
    (0xFE : Byte).extractLsb' 0 2 = (0x02 : Byte).extractLsb' 0 2 ∧
    (0xFF : Byte).extractLsb' 0 2 = (0x07 : Byte).extractLsb' 0 2 ∧ (0xFF : Byte).getLsbD 2 = (0x07 : Byte).getLsbD 2 := by
  and_intros <;> decide

theorem witness_StepRunsTheDecodedInstruction :
    { State.reset with upcoming := [.access 0x4401, .tick] }.upcoming = .access 0x4401 :: [.tick] ∧
    decode 0x4401 = .ok (.regWrite 0x04 0x01) ∧ (Instr.regWrite 0x04 0x01).wellFormed = true := by
  and_intros <;> decide

theorem witness_StepPerformsTheNextAgentEvent :
    { State.reset with upcoming := [.engine .err] }.upcoming = .engine .err :: [] ∧
    { State.reset with upcoming := [.arrive 0x55, .tick] }.upcoming = .arrive 0x55 :: [.tick] ∧
    { State.reset with upcoming := [.tick] }.upcoming = .tick :: [] ∧
    { State.reset with upcoming := [.reset] }.upcoming = .reset :: [] ∧ State.reset.upcoming = [] := by
  and_intros <;> decide

theorem witness_RegisterReadFollowsTheMap :
    (0x19 : Offset).toNat = 0x10 + (9 : Fin 10).val ∧ (0x20 : Offset).toNat = 0x20 + (0 : Fin 16).val ∧
    (0x3F : Offset).toNat = 0x30 + (15 : Fin 16).val ∧ IsReservedOffset 0x1A ∧ IsReservedOffset 0x0F ∧
    State.reset.fsm = .idle ∧ sending.fsm = .sending ∧ echoing.fsm = .discardingEcho ∧
    awaitingHeader.fsm = .awaitingHeader ∧ awaitingBody.fsm = .awaitingBody := by
  and_intros <;> decide

theorem witness_ReservedOffsetsAreInertAndNoAccessFaults :
    IsReservedOffset 0x0B ∧ IsReservedOffset 0x0F ∧ IsReservedOffset 0x1A ∧ IsReservedOffset 0x1F ∧
    ¬ IsReservedOffset 0x0A ∧ ¬ IsReservedOffset 0x19 ∧ ¬ IsReservedOffset 0x20 := by
  and_intros <;> decide

theorem witness_ReadOnlyOffsetsIgnoreWrites :
    IsReadOnlyOffset 0x01 ∧ IsReadOnlyOffset 0x03 ∧ IsReadOnlyOffset 0x07 ∧ IsReadOnlyOffset 0x09 ∧
    IsReadOnlyOffset 0x0A ∧ IsReadOnlyOffset 0x20 ∧ IsReadOnlyOffset 0x2F ∧ ¬ IsReadOnlyOffset 0x00 ∧
    ¬ IsReadOnlyOffset 0x04 ∧ ¬ IsReadOnlyOffset 0x08 ∧ ¬ IsReadOnlyOffset 0x30 := by
  and_intros <;> decide

theorem witness_ReceiveRegistersAreWrittenOnlyWhileIdle :
    State.reset.status.busy = false ∧ (0x30 : Offset).toNat = 0x30 + (0 : Fin 16).val ∧
    (0x3F : Offset).toNat = 0x30 + (15 : Fin 16).val ∧ sending.status.busy = true ∧
    exec (.regWrite 0x08 0x05) sending = .next sending := by
  and_intros <;> first | decide | exact eq_next (by decide)

theorem witness_RequestRegistersAreWritableAlways :
    (0x10 : Offset).toNat = 0x10 + (0 : Fin 10).val ∧ (0x19 : Offset).toNat = 0x10 + (9 : Fin 10).val ∧
    sending.status.busy = true ∧ IsRequestOffset 0x04 ∧ IsRequestOffset 0x06 ∧ IsRequestOffset 0x10 ∧
    IsRequestOffset 0x19 ∧ exec (.regWrite 0x04 0x09) sending = .next { sending with reqId := 0x09 } ∧
    engineStep Config.referenceTiming (.ok 0) sending = .next echoing ∧
    exec (.regWrite 0x04 0x09) echoing = .next { echoing with reqId := 0x09 } := by
  and_intros <;> first | decide | exact eq_next (by decide)

theorem witness_CtrlWriteRunsItsCommand :
    decode (accessWord true 0x00 0x00) = .ok .ctrlNop ∧ decode (accessWord true 0x00 0xF9) = .ok .ctrlEncode ∧
    decode (accessWord true 0x00 0xFE) = .ok .ctrlDecode ∧
    decode (accessWord true 0x00 0x03) = .ok (.ctrlTransact false) ∧
    decode (accessWord true 0x00 0xFF) = .ok (.ctrlTransact true) := by
  and_intros <;> decide

theorem witness_NopHasNoEffect : (0xFC : Byte).extractLsb' 0 2 = 0 := by decide

/-- A rejected start, and the accepted one that clears REJECTED. -/
theorem witness_StartWhileBusyIsRejected :
    sending.status.busy = true ∧ (0x01 : Byte).extractLsb' 0 2 ≠ 0 ∧
    decode (accessWord true 0x00 0x01) = .ok .ctrlEncode ∧
    (perform Config.referenceTiming (.access 0x4001) sending =
      .next { sending with status := ⟨true, false, true, true⟩ }) ∧
    (perform Config.referenceTiming (.access 0x4002) { loaded reply with status := ⟨false, true, true, false⟩ } =
      .next { loaded reply with status := ⟨false, true, false, false⟩, expLen := 8 }) ∧
    perform Config.referenceTiming (.access 0x4007) (request 0x01 0x1C 0x00) = .next sending := by
  and_intros <;> first | decide | exact eq_next (by decide)

theorem witness_EncodeBuildsTheFrameOrRefuses :
    (request 0x01 0x1C 0x0B).status.busy = false ∧ 10 < (request 0x01 0x1C 0x0B).reqNparam.toNat ∧
    (request 0xFF 0x1C 0x0A).reqNparam.toNat ≤ 10 ∧ (request 0xFF 0x1C 0x0A).reqId = 255 ∧
    (request 0xFE 0x1C 0x0A).reqNparam.toNat ≤ 10 ∧ (request 0xFE 0x1C 0x0A).reqId ≠ 255 := by
  and_intros <;> decide

theorem witness_DecodeReportsTheCodecsVerdict :
    State.reset.status.busy = false ∧ 16 < ({ State.reset with rxcnt := 17 }).rxcnt.toNat ∧
    ({ State.reset with rxcnt := 16 }).rxcnt.toNat ≤ 16 ∧
    decodeFrame (loaded reply).rxbuf (loaded reply).rxcnt.toNat = .ok 8 ∧
    decodeFrame (loaded reply).rxbuf 7 = .error ⟨.malformedResponse, 4⟩ := by
  and_intros <;> decide

theorem witness_TransactStartsTheEngineOrRefuses :
    (request 0x01 0x1C 0x0A).status.busy = false ∧ (request 0x01 0x1C 0x0A).reqNparam.toNat ≤ 10 ∧
    (request 0x01 0x1C 0x0A).reqId ≠ 255 ∧ 10 < (request 0x01 0x1C 0x0B).reqNparam.toNat ∧
    (request 0xFF 0x1C 0x00).reqId = 255 := by
  and_intros <;> decide

theorem witness_EngineStepsExactlyWhileBusy :
    State.reset.status.busy = false ∧ sending.status.busy = true ∧
    TransceiverInv Config.referenceTiming sending ∧ TransceiverInv Config.referenceTiming echoing ∧
    TransceiverInv Config.referenceTiming awaitingHeader ∧ TransceiverInv Config.referenceTiming awaitingBody := by
  and_intros <;> decide

theorem witness_SendingDiscardsWritesAndGoesOn :
    sending.status.busy = true ∧ sending.fsm = .sending ∧ sending.txlen.toNat ≤ 16 ∧ 5 < sending.txlen.toNat ∧
    sending.status.replyExp = true ∧ ({ sending with status := ⟨true, false, false, false⟩ }).status.replyExp = false := by
  and_intros <;> decide

/-- The three clauses at their boundaries: exactly ECHO_REM bytes, none, and one fewer than ECHO_REM. -/
theorem witness_EchoIsDiscardedByCount :
    echoing.status.busy = true ∧ echoing.fsm = .discardingEcho ∧ echoing.echoRem ≠ 0 ∧ echoing.rxq = [] ∧
    echoing.echoRem.toNat ≤ ({ echoing with rxq := [0x55, 0x55, 0x01, 0x03, 0x1C, 0xDF] }).rxq.length ∧
    0 < ({ echoing with rxq := [0x55, 0x55, 0x01, 0x03, 0x1C] }).rxq.length ∧
    ({ echoing with rxq := [0x55, 0x55, 0x01, 0x03, 0x1C] }).rxq.length < echoing.echoRem.toNat := by
  and_intros <;> decide

theorem witness_FailedReadAppendsNothing :
    echoing.status.busy = true ∧ echoing.fsm = .discardingEcho ∧ echoing.echoRem ≠ 0 ∧
    awaitingHeader.status.busy = true ∧ awaitingHeader.fsm = .awaitingHeader ∧ awaitingHeader.rxcnt.toNat ≤ 3 ∧
    awaitingBody.status.busy = true ∧ awaitingBody.fsm = .awaitingBody ∧
    awaitingBody.rxcnt.toNat < awaitingBody.expLen.toNat := by
  and_intros <;> decide

theorem witness_AppendStoresAfterTheBytesHeld :
    ({ State.reset with rxcnt := 12 }).rxcnt.toNat + [(1 : Byte), 2, 3, 4].length ≤ 16 := by decide

theorem witness_ResyncShiftsOneByteOrNothing :
    2 ≤ (loaded [0x55, 0xAA]).rxcnt.toNat ∧ (loaded [0x55, 0xAA]).rxcnt.toNat ≤ 16 ∧
    ¬ ((loaded [0x55, 0xAA]).rxbuf[0] = 0x55 ∧ (loaded [0x55, 0xAA]).rxbuf[1] = 0x55) ∧
    (loaded [0xAA]).rxcnt.toNat < 2 ∧
    ((loaded [0x55, 0x55]).rxbuf[0] = 0x55 ∧ (loaded [0x55, 0x55]).rxbuf[1] = 0x55) := by
  and_intros <;> decide

/-- A header phase with this in `rxq`. -/
def headerWith (q : List Byte) : State := { awaitingHeader with rxq := q }

/-- The clauses at their boundaries: lengths 2, 14, 3 and 13, and an incomplete header before and at its deadline. -/
theorem witness_HeaderStepCompletesTimesOutOrWaits :
    (headerWith []).status.busy = true ∧ (headerWith []).fsm = .awaitingHeader ∧ (headerWith []).rxcnt.toNat ≤ 3 ∧
    (headerRead (headerWith [0x55, 0x55, 0x01, 0x02])).rxcnt.toNat = 4 ∧
    (headerRead (headerWith [0x55, 0x55, 0x01, 0x02])).rxbuf[3].toNat < 3 ∧
    13 < (headerRead (headerWith [0x55, 0x55, 0x01, 0x0E])).rxbuf[3].toNat ∧
    3 ≤ (headerRead (headerWith [0x55, 0x55, 0x01, 0x03])).rxbuf[3].toNat ∧
    (headerRead (headerWith [0x55, 0x55, 0x01, 0x0D])).rxbuf[3].toNat ≤ 13 ∧
    (headerRead (headerWith [0xAA, 0x55, 0x55, 0x01])).rxcnt.toNat ≠ 4 ∧
    (headerWith []).now < (headerWith []).deadline ∧
    ({ headerWith [] with now := 50 }).deadline ≤ ({ headerWith [] with now := 50 }).now := by
  and_intros <;> decide

theorem witness_BodyStepDecodesTimesOutOrWaits :
    awaitingBody.status.busy = true ∧ awaitingBody.fsm = .awaitingBody ∧ BodyInv Config.referenceTiming awaitingBody ∧
    (bodyRead { awaitingBody with rxq := [0x1C, 0xE8, 0x03, 0xF2] }).rxcnt = awaitingBody.expLen ∧
    (bodyRead { awaitingBody with rxq := [0x1C, 0xE8, 0x03] }).rxcnt ≠ awaitingBody.expLen ∧
    awaitingBody.now < awaitingBody.deadline ∧ ({ awaitingBody with now := 60 }).deadline ≤ 60 := by
  and_intros <;> decide

theorem witness_CompletionWritesExactlyItsRegisters :
    StatusInv State.reset ∧ State.reset.status.busy = false := by
  and_intros <;> decide

theorem witness_RaiseMatrixIsExhaustive :
    (∃ t, exec .ctrlEncode State.reset = .next t) ∧ (∃ t, exec .ctrlDecode State.reset = .next t) ∧
    (∃ t, exec (.ctrlTransact false) (request 0xFF 0 0) = .next t ∧ t.status.busy = false) ∧
    (∃ t, engineStep Config.referenceTiming .err sending = .next t ∧ t.status.busy = false) ∧
    (∃ t, exec .ctrlNop sending = .next t) :=
  ⟨⟨_, rfl⟩, ⟨_, rfl⟩, ⟨_, rfl, by decide⟩, ⟨_, rfl, rfl⟩, ⟨_, rfl⟩⟩

/-- A completing engine step, an accepted start that clears RESULT, one that completes, and a reset. -/
theorem witness_ResultIsWrittenByCompletionStartOrReset :
    (∃ t, perform Config.referenceTiming (.engine .err) echoing = .next t ∧ t.result ≠ echoing.result) ∧
    (∃ t, perform Config.referenceTiming (.access 0x4007) { request 0x01 0x1C 0x00 with result := 0x27 } = .next t ∧
      t.result ≠ 0x27) ∧
    (∃ t, perform Config.referenceTiming (.access 0x4001) (request 0xFF 0x1C 0x00) = .next t ∧ t.result ≠ 0x00) ∧
    (∃ t, perform Config.referenceTiming .reset { State.reset with result := 0x27 } = .next t ∧ t.result ≠ 0x27) :=
  ⟨⟨_, rfl, by decide⟩, ⟨_, rfl, by decide⟩, ⟨_, rfl, by decide⟩, ⟨_, rfl, by decide⟩⟩

theorem witness_CompletedOutcomeIsStable :
    State.reset.status.busy = false ∧
    (∃ t, perform Config.referenceTiming (.arrive 0x55) State.reset = .next t) ∧
    (∀ w, Event.arrive 0x55 = .access w → ¬ StartsCommand w ∧ ¬ WritesReceive w) :=
  ⟨rfl, ⟨_, rfl⟩, fun _ h => by cases h⟩

theorem witness_NoHostActionEndsATransact :
    sending.status.busy = true ∧ (∃ t, exec .ctrlEncode sending = .next t) ∧
    (∃ t, perform Config.referenceTiming (.engine .err) sending = .next t ∧ t.status.busy = false) ∧
    (∃ t, perform Config.referenceTiming .reset sending = .next t ∧ t.status.busy = false) :=
  ⟨rfl, ⟨_, rfl⟩, ⟨_, rfl, rfl⟩, ⟨_, rfl, rfl⟩⟩

theorem witness_OnlyEncodeFillsTxbuf :
    (∃ t, perform Config.referenceTiming .reset sending = .next t ∧ t.txlen ≠ sending.txlen) ∧
    (∃ t, perform Config.referenceTiming (.access 0x4007) (request 0x01 0x1C 0x00) = .next t ∧ t.txlen ≠ 0) :=
  ⟨⟨_, rfl, by decide⟩, ⟨_, rfl, by decide⟩⟩

theorem witness_OnlySendingWritesTheLine :
    ∃ t, perform Config.referenceTiming (.engine (.ok 0)) sending = .next t ∧ t.line ≠ sending.line :=
  ⟨_, rfl, by decide⟩

theorem witness_ClockAdvancesByTickAlone :
    perform Config.referenceTiming .tick State.reset = .next { State.reset with now := 1 } ∧
    perform Config.referenceTiming (.arrive 0x55) State.reset = .next { State.reset with rxq := [0x55] } := by
  and_intros <;> first | decide | exact eq_next (by decide)

/-- A state of the invariant, whatever the timing is, and a step from it. -/
theorem witness_StepKeepsTheInvariant :
    TransceiverInv Config.timing { sending with upcoming := [.tick] } ∧
    ∃ t, step { sending with upcoming := [.tick] } = .next t :=
  ⟨by refine ⟨by decide, by decide, by decide, by decide, by decide, ?_, ?_⟩ <;> intro h <;> exact absurd h (by decide),
    ⟨_, rfl⟩⟩

theorem witness_MachineNeverStops : TransceiverInv Config.timing { sending with upcoming := [.engine .err] } := by
  refine ⟨by decide, by decide, by decide, by decide, by decide, ?_, ?_⟩ <;> intro h <;> exact absurd h (by decide)

theorem witness_StepKeepsTxbufAFrame :
    TxHoldsFrame { sending with upcoming := [.tick] } ∧ TxHoldsFrame State.reset ∧
    ∃ t, step { sending with upcoming := [.tick] } = .next t :=
  ⟨.inr (by decide), .inl (by decide), ⟨_, rfl⟩⟩

/-- Two idle states with the same request, one of them with stale bytes everywhere. -/
theorem witness_ExchangeForgetsTheOneBefore :
    let s := request 0x01 0x1C 0x00
    let s' := { s with status := ⟨false, true, true, true⟩, result := 0x04, rxbuf := bufOfList reply, rxcnt := 8,
                       echoRem := 3, expLen := 8, deadline := 77, rxq := reply }
    s.status.busy = false ∧ s'.status.busy = false ∧ s.reqNparam.toNat ≤ 10 ∧ s.reqId ≠ 255 ∧ s'.reqId = s.reqId ∧
    s'.reqCmd = s.reqCmd ∧ s'.reqNparam = s.reqNparam ∧ s'.reqParam = s.reqParam ∧ s'.now = s.now ∧ s'.line = s.line ∧
    s'.hostReads = s.hostReads ∧ s'.upcoming = s.upcoming ∧ s'.draws = s.draws ∧
    exec (.ctrlTransact true) s = .next sending ∧ exec (.ctrlTransact true) s' = .next { sending with rxq := reply } := by
  and_intros <;> first | decide | exact eq_next (by decide)

theorem witness_BroadcastNeverWaitsForAReply :
    (request 0xFE 0x01 0x0A).status.busy = false ∧ (request 0xFE 0x01 0x0A).reqId = 254 ∧
    (request 0xFE 0x01 0x0A).reqNparam.toNat ≤ 10 ∧ ∃ t, exec (.ctrlTransact true) (request 0xFE 0x01 0x0A) = .next t :=
  ⟨by decide, by decide, by decide, ⟨_, rfl⟩⟩

/-- The rest of program P2 after its start: polls of STATUS between the engine turns, the echo, then REPLY. -/
def programP2 : List Event :=
  [Event.access 0x0100, turn] ++ (txFrame sending).map Event.arrive ++ [turn, Event.access 0x0100] ++
    reply.map Event.arrive ++ [turn, turn, Event.access 0x0100]

/-- Silence after the echo, past the header deadline of the shortest timing, with the next request being loaded. -/
def silence : List Event :=
  [turn] ++ (txFrame sending).map Event.arrive ++ [turn, Event.access 0x4409, turn, Event.tick, turn]

/-- The same request with no reply wanted. -/
def sendingOnly : State := after (exec (.ctrlTransact false) (request 0x01 0x1C 0x00))

/-- Each clause: P2 with REPLY, an echo alone where no reply is expected, and silence where one is. -/
theorem witness_ReferenceLineDecidesTheOutcome :
    (request 0x01 0x1C 0x00).status.busy = false ∧ (request 0x01 0x1C 0x00).reqNparam.toNat ≤ 10 ∧
    (request 0x01 0x1C 0x00).reqId ≠ 255 ∧ (request 0x01 0x1C 0x00).reqId ≠ 254 ∧
    exec (.ctrlTransact true) (request 0x01 0x1C 0x00) = .next sending ∧
    exec (.ctrlTransact false) (request 0x01 0x1C 0x00) = .next sendingOnly ∧
    (∀ e ∈ programP2, isQuiet e = true) ∧ (∀ e ∈ silence, isQuiet e = true) ∧
    encodeFrame 0x01 0x1C 0x02 #v[0xE8, 0x03, 0, 0, 0, 0, 0, 0, 0, 0] = .ok reply ∧
    ReferenceLine (some reply) (runTrace Config.referenceTiming programP2 sending) ∧
    4 ≤ (programP2.filter isEngine).length ∧ arrivals programP2 = txFrame sending ++ reply ∧
    ReferenceLine none (runTrace fastTiming silence sendingOnly) ∧
    ReferenceLine none (runTrace fastTiming silence sending) ∧
    (after (performAll fastTiming silence sending)).status.busy = false := by
  and_intros <;> first | decide | exact eq_next (by decide)

/-- Another byte after the echo, a failed write and a late echo each break a premise of R70 to R72. -/
theorem test_premises_can_fail :
    ¬ ReferenceLine none (runTrace fastTiming (silence ++ [Event.arrive 0x55]) sendingOnly) ∧
    ¬ NoFault (runTrace fastTiming [Event.engine Answer.err] sending) ∧
    ¬ EchoPrompt (runTrace fastTiming ([turn, turn] ++ (txFrame sending).map Event.arrive) sending) := by
  and_intros <;> decide +kernel

/-- A false start `0x55 0xAA` before the header, read in two engine turns. -/
theorem witness_HeaderPhaseTakesTheFirstHeader :
    let s := headerWith [0xAA, 0x55]
    let es := [Event.engine (.ok 0), .arrive 0x55, .arrive 0x01, .arrive 0x05]
    let u := { headerWith [0x55, 0x01, 0x05] with rxcnt := 1, rxbuf := bufOfList [0x55] }
    s.status.busy = true ∧ s.fsm = .awaitingHeader ∧ s.rxcnt = 0 ∧ (∀ e ∈ es, isInner e = true) ∧
    performAll Config.referenceTiming es s = .next u ∧ u.fsm = .awaitingHeader ∧
    engineStep Config.referenceTiming (.ok 0) u =
      .next { awaitingBody with deadline := 60 } ∧ awaitingBody.fsm = .awaitingBody := by
  and_intros <;> first | decide | exact eq_next (by decide)

theorem witness_EchoPhaseIsBounded :
    let s := { echoing with echoRem := 1 }
    let es := [Event.engine (.ok 0), .engine (.ok 0)]
    s.status.busy = true ∧ s.fsm = .discardingEcho ∧ s.echoRem ≠ 0 ∧ (∀ e ∈ es, isInner e = true) ∧
    s.echoRem.toNat < (es.filter isEngine).length ∧
    performAll Config.referenceTiming es s = .next { awaitingHeader with echoRem := 1 } := by
  and_intros <;> first | decide | exact eq_next (by decide)

/-- Eighteen engine turns. -/
def turns : List Event := List.replicate 18 turn

/-- An exchange in flight, with deadlines of 1 and 2 ms, that meets silence. -/
theorem witness_TransactCompletesWhenEngineAndClockRun :
    TransceiverInv fastTiming sending ∧
    (∀ e ∈ turns ++ [Event.tick] ++ [Event.tick, Event.tick], isInner e = true) ∧
    18 ≤ (turns.filter isEngine).length ∧
    fastTiming.header ≤ [Event.tick].count Event.tick ∧ fastTiming.body ≤ [Event.tick, Event.tick].count Event.tick ∧
    ∃ t, performAll fastTiming
      (turns ++ [Event.tick] ++ [turn] ++ [Event.tick, Event.tick] ++ [turn]) sending = .next t :=
  ⟨by and_intros <;> decide, by decide, by decide, by decide, by decide, exists_next (by decide +kernel)⟩

theorem witness_ChecksumIsTheComplementedSum :
    (([0xFD, 0x03, 0x00] : List Byte).map BitVec.toNat).sum % 256 = 0 ∧
    (([0xFC, 0x03, 0x00] : List Byte).map BitVec.toNat).sum % 256 = 255 := by
  and_intros <;> decide

theorem witness_EncodeFrameBuildsTheWireFormat :
    10 < (0x0B : Byte).toNat ∧ (0x0A : Byte).toNat ≤ 10 ∧ (255 : Byte) = 255 ∧ (254 : Byte) ≠ 255 ∧
    (9 : Fin 10).val < (0x0A : Byte).toNat := by
  and_intros <;> decide

/-- Each check of R114 at a buffer that reaches it, and two buffers that agree below `c`. -/
theorem witness_DecodeFrameChecksInOrder :
    ¬ ((bufOfList [0x55, 0x54]).toList[0]? = some 0x55 ∧ (bufOfList [0x55, 0x54]).toList[1]? = some 0x55) ∧
    (bufOfList reply)[0] = 0x55 ∧ (bufOfList reply)[1] = 0x55 ∧ (bufOfList [0x55, 0x55, 1, 2])[3].toNat < 3 ∧
    13 < (bufOfList [0x55, 0x55, 1, 14])[3].toNat ∧ 3 ≤ (bufOfList [0x55, 0x55, 1, 3])[3].toNat ∧
    (bufOfList [0x55, 0x55, 1, 13])[3].toNat ≤ 13 ∧ 7 < 3 + (bufOfList reply)[3].toNat ∧
    3 + (bufOfList reply)[3].toNat ≤ 8 ∧
    byteAt (bufOfList reply) 7 = cks (((bufOfList reply).toList.take 7).drop 2) ∧
    byteAt (bufOfList (reply.take 7)) 7 ≠ cks (((bufOfList (reply.take 7)).toList.take 7).drop 2) ∧
    (∀ i : Fin 16, i.val < 7 → (bufOfList reply)[i] = (bufOfList (reply.take 7))[i]) := by
  and_intros <;> decide

theorem witness_EncodedFrameDecodesBack :
    encodeFrame 0x01 0x1C 0x02 #v[0xE8, 0x03, 0, 0, 0, 0, 0, 0, 0, 0] = .ok reply ∧
    (∀ i, i < reply.length → reply[i]? = some (byteAt (bufOfList (reply ++ [0xFF])) i)) ∧
    reply.length ≤ 16 := by
  and_intros <;> decide

theorem witness_SingleByteChangeIsDetected :
    decodeFrame (bufOfList reply) 8 = .ok 8 ∧ ((2 : Fin 16).val = 2 ∨ 4 ≤ (2 : Fin 16).val) ∧
    ((7 : Fin 16).val = 2 ∨ 4 ≤ (7 : Fin 16).val) ∧ (7 : Fin 16).val < 8 ∧ (0xF3 : Byte) ≠ (bufOfList reply)[7] ∧
    (0x02 : Byte) ≠ (bufOfList reply)[2] := by
  and_intros <;> decide

theorem witness_HeaderOrLengthChangeIsClassified :
    decodeFrame (bufOfList reply) 8 = .ok 8 ∧ (0x54 : Byte) ≠ (bufOfList reply)[0] ∧
    (0x54 : Byte) ≠ (bufOfList reply)[1] ∧ (2 : Byte).toNat < 3 ∧ 13 < (14 : Byte).toNat ∧ (13 : Byte).toNat ≤ 13 ∧
    8 < 3 + (6 : Byte).toNat := by
  and_intros <;> decide

/-- A deadline ahead and a deadline behind, each as far as 16 bits allow. -/
theorem witness_WrappedDeadlineTestAgrees :
    (16 ≤ 16 ∧ 0 ≤ 32767 + (2 ^ (16 - 1) - 1) ∧ 32767 ≤ 0 + (2 ^ (16 - 1) - 1)) ∧
    (65536 + 32767 ≤ 65536 + (2 ^ (16 - 1) - 1) ∧ 65536 ≤ 65536 + 32767 + (2 ^ (16 - 1) - 1)) := by
  and_intros <;> decide

theorem witness_SixteenBitFieldsRoundTrip : (-32768 : Int) ≤ -32768 ∧ (-32768 : Int) ≤ 32767 := by
  and_intros <;> decide

/-- −5 degrees is negative and finite; the bit pattern of +∞ is refused (R221). -/
theorem witness_PositionsAreClampedAndNonFiniteRefused :
    pos 0xC014000000000000 = some 0 ∧ (0xC014000000000000 : BitVec 64).getLsbD 63 = true ∧
    (0x7FF0000000000000 : BitVec 64).extractLsb' 52 11 = 0x7FF := by decide +kernel

/-- 45 and 135 degrees in order, the same angle twice, and an angle that POS refuses. -/
theorem witness_AngleLimitsAreNormalised :
    pos 0x4046800000000000 = some 188 ∧ pos 0x4060E00000000000 = some 563 ∧ (188 : Word16).toNat ≤ (563 : Word16).toNat ∧
    (188 : Word16).toNat ≤ (188 : Word16).toNat ∧ (188 : Word16).toNat < (563 : Word16).toNat ∧
    pos 0x7FF8000000000000 = none := by decide +kernel

theorem witness_LoadReqLoadsTheRequest : [(1 : Byte), 2, 3, 4, 5, 6, 7, 8, 9, 10].length ≤ 10 := by decide

theorem witness_PositionReplyIsDecodedByShape :
    (loaded reply).rxbuf[3] = 5 ∧ (loaded (reply.take 3)).rxbuf[3] ≠ 5 := by
  and_intros <;> decide

end Sys2Proof.Tests
end

/-! PROOFS. The step, by the next agent step (spec/00_scope.md R5, R6). -/

namespace Sys2Proof.Machine

/-- A host access whose word decodes is its instruction's meaning (R93). -/
theorem hostStep_of_decode {w : AccessWord} {i : Instr} (hd : decode w = .ok i) (s : State) :
    hostStep w s = exec i s := by
  rw [hostStep, hd]

/-- An agent step written out in the state is the one that `step` performs (notes entry 1). -/
theorem step_of_upcoming_cons {s : State} {e : Event} {rest : List Event} (hu : s.upcoming = e :: rest) :
    step s = perform Config.timing e { s with upcoming := rest } := by
  rcases nextEvent_cases s with ⟨e', rest', hu', hn⟩ | ⟨hu', _⟩
  · obtain ⟨rfl, rfl⟩ := List.cons.inj (hu'.symm.trans hu)
    rw [step, hn]
  · cases hu'.symm.trans hu

/-- Where no agent step is written out, `step` performs the free draw and counts it (notes entry 1). -/
theorem step_of_upcoming_nil {s : State} (hu : s.upcoming = []) :
    step s = perform Config.timing (Config.freeEvent s.draws) { s with draws := s.draws + 1 } := by
  rcases nextEvent_cases s with ⟨_, _, hu', _⟩ | ⟨_, hn⟩
  · cases hu'.symm.trans hu
  · rw [step, hn]

/-- Settles O6: the step performs the access, and the access is its instruction's meaning. -/
theorem stepRunsTheDecodedInstruction : Obligations.StepRunsTheDecodedInstruction := by
  intro s w rest i hu hd _
  calc step s
      = perform Config.timing (.access w) { s with upcoming := rest } := step_of_upcoming_cons hu
    _ = hostStep w { s with upcoming := rest } := rfl
    _ = exec i { s with upcoming := rest } := hostStep_of_decode hd _

/-- Settles O7, agent by agent: what is left after `step_of_upcoming_cons` is the agent's own atomic step. -/
theorem stepPerformsTheNextAgentEvent : Obligations.StepPerformsTheNextAgentEvent := by
  refine ⟨?engine, ?arrive, ?tick, ?reset, ?free⟩
  case engine =>
    intro s rest a hu
    rw [step_of_upcoming_cons hu, perform]
  case arrive =>
    intro s rest b hu
    rw [step_of_upcoming_cons hu, perform, arrive]
  case tick =>
    intro s rest hu
    rw [step_of_upcoming_cons hu, perform, tick]
  case reset =>
    intro s rest hu
    rw [step_of_upcoming_cons hu, perform, platformReset]
  case free =>
    intro s hu
    exact ⟨Config.freeEvent s.draws, step_of_upcoming_nil hu⟩

end Sys2Proof.Machine

/-! PROOFS. The codec round trip: what EncodeFrame builds, DecodeFrame accepts (spec/40_frame_codec.md R113, R114). -/

namespace Sys2Proof.Machine

/-- The bytes a frame's checksum is taken over: id, length, command, parameters (R110, R113). -/
def frameBody (id cmd n : Byte) (p : Vector Byte 10) : List Byte :=
  [id, BitVec.ofNat 8 (n.toNat + 3), cmd] ++ p.toList.take n.toNat

/-- A frame's body has its three fixed bytes and its parameters (R84). -/
theorem length_frameBody {id cmd n : Byte} {p : Vector Byte 10} (hn : n.toNat ≤ 10) :
    (frameBody id cmd n p).length = n.toNat + 3 := by
  simp [frameBody]
  omega

/-- An encoded frame is the header, the body and the body's checksum (R113). -/
theorem encodeFrame_ok {id cmd n : Byte} {p : Vector Byte 10} {f : List Byte} (h : encodeFrame id cmd n p = .ok f) :
    n.toNat ≤ 10 ∧
    f = [Config.hdr0, Config.hdr1] ++ frameBody id cmd n p ++ [cks (frameBody id cmd n p)] := by
  rcases encodeFrame_cases id cmd n p with ⟨_, e⟩ | ⟨_, _, e⟩ | ⟨hn, _, e⟩
  · cases e.symm.trans h
  · cases e.symm.trans h
  · exact ⟨hn, (Except.ok.inj (e.symm.trans h)).symm⟩

/-- A buffer that begins with a list holds the list's bytes. -/
theorem byteAt_of_take {b : Vector Byte 16} {f : List Byte} (hb : b.toList.take f.length = f) {i : Nat}
    (hi : i < f.length) : byteAt b i = f.getD i 0 := by
  conv_rhs => rw [← hb]
  simp [byteAt, List.getD_eq_getElem?_getD, hi]

/-- DecodeFrame accepts a buffer that begins with an encoded frame, whatever stands after it (R113, R114). -/
theorem decodeFrame_encodeFrame {id cmd n : Byte} {p : Vector Byte 10} {f : List Byte} {b : Vector Byte 16} {c : Nat}
    (hf : encodeFrame id cmd n p = .ok f) (hb : b.toList.take f.length = f) (hc : f.length ≤ c) :
    decodeFrame b c = .ok f.length := by
  obtain ⟨hn, rfl⟩ := encodeFrame_ok hf
  have hlen := (encodeFrame_length hf).1
  have hbody := length_frameBody (id := id) (cmd := cmd) (p := p) hn
  set body := frameBody id cmd n p with hdef
  have hat : ∀ i, i < n.toNat + 6 → byteAt b i = ([Config.hdr0, Config.hdr1] ++ body ++ [cks body]).getD i 0 :=
    fun i hi => byteAt_of_take hb (by omega)
  have h0 : byteAt b 0 = Config.hdr0 := hat 0 (by omega)
  have h1 : byteAt b 1 = Config.hdr1 := hat 1 (by omega)
  have h3 : (byteAt b 3).toNat = n.toNat + 3 := by
    rw [hat 3 (by omega)]
    change (BitVec.ofNat 8 (n.toNat + 3)).toNat = n.toNat + 3
    rw [BitVec.toNat_ofNat]
    omega
  have hlast : byteAt b (2 + (n.toNat + 3)) = cks body := by
    rw [hat _ (by omega), Nat.add_comm 2]
    simp [List.getD_eq_getElem?_getD, ← hbody]
  have hmid : (b.toList.drop 2).take (n.toNat + 3) = body := by
    have hcut := congrArg (fun l => (l.drop 2).take (n.toNat + 3)) hb
    simp only [List.drop_take, List.take_take, hlen] at hcut
    rw [Nat.min_eq_left (by omega)] at hcut
    rw [hcut, ← hbody]
    simp
  have hhdr : hdrOk (byteAt b 0) (byteAt b 1) = true := by rw [h0, h1]; rfl
  rw [decodeFrame_whole hhdr (by omega) (by omega) (by omega), h3, if_pos (by rw [hmid, hlast]), hlen]
  congr 1
  omega

end Sys2Proof.Machine

/-! PROOFS. What a host access can do to the machine: write registers of the host's own, or start a command
(spec/42_host_access.md R180 to R187). -/

namespace Sys2Proof.Machine

/-! ### A write at offset 0x00 -/

/-- The command that a byte written to CTRL starts: OP in bits [1:0], W in bit 2 (R81). -/
def ctrlInstr (v : Byte) : Instr :=
  match (v.extractLsb' 0 2).toNat with
  | 0 => .ctrlNop
  | 1 => .ctrlEncode
  | 2 => .ctrlDecode
  | _ => .ctrlTransact (v.getLsbD 2)

/-- The word of a write at offset 0x00 decodes to the CTRL row of the byte's OP (R93, R181). -/
theorem decode_ctrl_access (v : Byte) : decode (accessWord true 0x00 v) = .ok (ctrlInstr v) := by
  revert v
  decide +kernel

/-- The instruction of a CTRL byte means what the dispatch of the byte does (R182 to R184). -/
theorem exec_ctrlInstr (v : Byte) (s : State) : exec (ctrlInstr v) s = .next (ctrlWrite v s) := by
  unfold ctrlInstr ctrlWrite
  generalize (v.extractLsb' 0 2).toNat = op
  match op with
  | 0 => rfl
  | 1 => rfl
  | 2 => rfl
  | _ + 3 => rfl

/-- A register write at offset 0x00 is the CTRL dispatch (R181). -/
theorem exec_regWrite_ctrl (v : Byte) (s : State) : exec (.regWrite 0x00 v) s = .next (ctrlWrite v s) := rfl

/-- Settles O13: both sides are the CTRL dispatch of the byte. -/
theorem ctrlWriteRunsItsCommand : Obligations.CtrlWriteRunsItsCommand := by
  intro s v i hd
  obtain rfl : ctrlInstr v = i := Except.ok.inj ((decode_ctrl_access v).symm.trans hd)
  rw [exec_regWrite_ctrl, exec_ctrlInstr]

/-! ### Every host access -/

/-- What a host access that starts no command leaves unchanged: all but REJECTED, the request registers, the record of
reads and, while BUSY = 0, RXCNT and RXBUF (R55, R183, R185 to R187). -/
structure HostFrame (s t : State) : Prop where
  frame : t = { s with
    status := { s.status with rejected := t.status.rejected },
    reqId := t.reqId, reqCmd := t.reqCmd, reqNparam := t.reqNparam, reqParam := t.reqParam,
    rxcnt := t.rxcnt, rxbuf := t.rxbuf, hostReads := t.hostReads }
  receive : s.status.busy = true → t.rxcnt = s.rxcnt ∧ t.rxbuf = s.rxbuf

/-- The state an accepted start leads to: one of the three commands has run (R116, R117, R140, R184). -/
def Started (s t : State) : Prop :=
  t = encodeCommand (acceptStart s) ∨ t = decodeCommand (acceptStart s) ∨
  ∃ want, t = transactCommand want (acceptStart s)

/-- Nothing happened. -/
theorem HostFrame.refl (s : State) : HostFrame s s := ⟨rfl, fun _ => ⟨rfl, rfl⟩⟩

/-- A start, turned away or accepted (R183, R184). -/
theorem guardedStart_frame_or_started {c : State → State} {s : State} (hc : Started s (c (acceptStart s))) :
    HostFrame s (guardedStart c s) ∨ (s.status.busy = false ∧ Started s (guardedStart c s)) := by
  rcases guardedStart_cases c s with ⟨_, e⟩ | ⟨hb, e⟩ <;> rw [e]
  · exact .inl ⟨rfl, fun _ => ⟨rfl, rfl⟩⟩
  · exact .inr ⟨hb, hc⟩

/-- A CTRL write: no effect, a start turned away, or one accepted (R182 to R184). -/
theorem ctrlWrite_frame_or_started (v : Byte) (s : State) :
    HostFrame s (ctrlWrite v s) ∨ (s.status.busy = false ∧ Started s (ctrlWrite v s)) := by
  rcases ctrlWrite_cases v s with e | e | e | e <;> rw [e]
  · exact .inl (.refl s)
  · exact guardedStart_frame_or_started (.inl rfl)
  · exact guardedStart_frame_or_started (.inr (.inl rfl))
  · exact guardedStart_frame_or_started (.inr (.inr ⟨_, rfl⟩))

/-- A write of RXCNT or RXBUF that is taken only while BUSY = 0 (R186). -/
theorem whenIdle_frame {write : State → State} {s : State}
    (hw : write s = { s with rxcnt := (write s).rxcnt, rxbuf := (write s).rxbuf }) :
    HostFrame s (whenIdle write s) := by
  unfold whenIdle
  cases hb : s.status.busy
  · rw [if_neg Bool.false_ne_true, hw]
    exact ⟨rfl, fun h => by cases hb.symm.trans h⟩
  · rw [if_pos rfl]
    exact .refl s

/-- A register write anywhere but at CTRL starts no command (R185 to R187). -/
theorem writeReg_frame {r : Reg} (v : Byte) (s : State) (hr : r ≠ .ctrl) : HostFrame s (writeReg v s r) := by
  cases r with
  | ctrl => exact absurd rfl hr
  | rxcnt => exact whenIdle_frame (write := fun s => { s with rxcnt := v }) rfl
  | rxbuf i => exact whenIdle_frame (write := fun s => { s with rxbuf := s.rxbuf.set i v }) rfl
  | _ => exact ⟨rfl, fun _ => ⟨rfl, rfl⟩⟩

/-- Every instruction either starts no command, or is accepted as one while BUSY = 0 (R183, R184). -/
theorem exec_frame_or_started {i : Instr} {s t : State} (h : exec i s = .next t) :
    HostFrame s t ∨ (s.status.busy = false ∧ Started s t) := by
  rcases exec_cases h with ⟨_, rfl⟩ | ⟨_, rfl⟩ | ⟨_, rfl⟩ | ⟨want, _, rfl⟩ | ⟨off, v, _, rfl⟩ | ⟨off, _, rfl⟩
  · exact .inl (.refl _)
  · exact guardedStart_frame_or_started (.inl rfl)
  · exact guardedStart_frame_or_started (.inr (.inl rfl))
  · exact guardedStart_frame_or_started (.inr (.inr ⟨want, rfl⟩))
  · by_cases hr : regAt off = .ctrl
    · rw [hr]
      exact ctrlWrite_frame_or_started v s
    · exact .inl (writeReg_frame v s hr)
  · exact .inl ⟨rfl, fun _ => ⟨rfl, rfl⟩⟩

/-- An instruction that a word decodes to starts a command only if the word is a CTRL write with OP ≠ 0: no word is a
register write at offset 0x00 (R181, R184). -/
theorem hostFrame_of_not_startsCommand {w : AccessWord} {i : Instr} {s t : State} (hd : decode w = .ok i)
    (hw : ¬ StartsCommand w) (h : exec i s = .next t) : HostFrame s t := by
  rcases exec_cases h with ⟨_, rfl⟩ | ⟨rfl, _⟩ | ⟨rfl, _⟩ | ⟨want, rfl, _⟩ | ⟨off, v, rfl, rfl⟩ | ⟨off, _, rfl⟩
  · exact .refl _
  · exact absurd (.inl hd) hw
  · exact absurd (.inr (.inl hd)) hw
  · exact absurd (.inr (.inr ⟨want, hd⟩)) hw
  · refine writeReg_frame v s fun hr => ?_
    exact Sys2Proof.Laws.decode_regWrite_off hd (BitVec.eq_of_toNat_eq ((regAt_special off).1 hr))
  · exact ⟨rfl, fun _ => ⟨rfl, rfl⟩⟩

/-- What the access of a word does: it starts no command, or it is a start accepted while BUSY = 0 (R183, R184). -/
theorem access_cases {w : AccessWord} {i : Instr} {s t : State} (hd : decode w = .ok i) (h : exec i s = .next t) :
    HostFrame s t ∨ (s.status.busy = false ∧ StartsCommand w ∧ Started s t) := by
  by_cases hw : StartsCommand w
  · exact (exec_frame_or_started h).imp_right fun ⟨hb, hs⟩ => ⟨hb, hw, hs⟩
  · exact .inl (hostFrame_of_not_startsCommand hd hw h)

/-! ### What an accepted start leaves -/

/-- After an accepted start the command has completed, or RESULT is cleared (R184, R255). -/
theorem Started.result {s t : State} (h : Started s t) :
    t.result = 0x00 ∨ (t.status.done = true ∧ t.status.busy = false ∧ t.fsm = .idle) := by
  rcases h with rfl | rfl | ⟨want, rfl⟩
  · rcases encodeCommand_cases (acceptStart s) with ⟨f, _, e⟩ | ⟨r, _, e⟩ <;> rw [e] <;> exact .inr ⟨rfl, rfl, rfl⟩
  · rcases decodeCommand_cases (acceptStart s) with ⟨_, e⟩ | ⟨_, e⟩ <;> rw [e] <;> exact .inr ⟨rfl, rfl, rfl⟩
  · rcases transactCommand_cases want (acceptStart s) with ⟨r, _, e⟩ | ⟨f, _, e⟩ <;> rw [e]
    · exact .inr ⟨rfl, rfl, rfl⟩
    · exact .inl rfl

/-- After an accepted start TXBUF and TXLEN are unchanged, empty, or hold the frame of EncodeFrame (R30, R31). -/
theorem Started.tx {s t : State} (h : Started s t) :
    (t.txbuf = s.txbuf ∧ t.txlen = s.txlen) ∨ (t.txbuf = zeroBuf ∧ t.txlen = 0) ∨
    ∃ f, encodeFrame s.reqId s.reqCmd s.reqNparam s.reqParam = .ok f ∧
      t.txbuf = bufOfList f ∧ t.txlen = BitVec.ofNat 8 f.length := by
  rcases h with rfl | rfl | ⟨want, rfl⟩
  · rcases encodeCommand_cases (acceptStart s) with ⟨f, hf, e⟩ | ⟨r, _, e⟩ <;> rw [e]
    · exact .inr (.inr ⟨f, hf, rfl, rfl⟩)
    · exact .inr (.inl ⟨bufOfList_nil, rfl⟩)
  · rcases decodeCommand_cases (acceptStart s) with ⟨_, e⟩ | ⟨_, e⟩ <;> rw [e] <;> exact .inl ⟨rfl, rfl⟩
  · rcases transactCommand_cases want (acceptStart s) with ⟨r, _, e⟩ | ⟨f, hf, e⟩ <;> rw [e]
    · exact .inr (.inl ⟨rfl, rfl⟩)
    · exact .inr (.inr ⟨f, hf, rfl, rfl⟩)

/-- TXLEN holds the length of an encoded frame (R31, R84). -/
theorem toNat_ofNat_encodeFrame_length {id cmd n : Byte} {p : Vector Byte 10} {f : List Byte}
    (hf : encodeFrame id cmd n p = .ok f) : (BitVec.ofNat 8 f.length).toNat = f.length := by
  obtain ⟨hl, hn⟩ := encodeFrame_length hf
  rw [BitVec.toNat_ofNat]
  omega

end Sys2Proof.Machine

/-! PROOFS. What an engine turn does to a TRANSACT in flight: it completes it or goes on in a phase
(spec/41_transaction.md R143 to R160). -/

namespace Sys2Proof.Machine

/-! ### One turn, said once -/

/-- What every engine turn leaves unchanged: the request registers, TXBUF and TXLEN, the clock, the host's record and
the agent steps to come. -/
abbrev EngineFrame (s t : State) : Prop :=
  t = { s with
    status := t.status, result := t.result, fsm := t.fsm, rxcnt := t.rxcnt, rxbuf := t.rxbuf, echoRem := t.echoRem,
    expLen := t.expLen, deadline := t.deadline, rxq := t.rxq, line := t.line, draws := t.draws }

/-- A change within the frame after another is within the frame. -/
theorem EngineFrame.trans {s u t : State} (hu : EngineFrame s u) (ht : EngineFrame u t) : EngineFrame s t := by
  rw [ht, hu]

theorem EngineFrame.tx {s t : State} (h : EngineFrame s t) : t.txbuf = s.txbuf ∧ t.txlen = s.txlen := by
  rw [h]
  exact ⟨rfl, rfl⟩

/-- The turn completes the TRANSACT with an outcome of the engine (R253, R255). -/
structure Completes (s t : State) : Prop where
  status : t.status = statusOnComplete s.status
  fsm : t.fsm = .idle
  result : t.result ∈ engineResults
  frame : EngineFrame s t

/-- The state after a successful echo read (R147). -/
def echoRead (s : State) : State :=
  countEcho (min s.echoRem.toNat s.rxq.length) (consume s.echoRem.toNat s)

/-- The turn leaves the TRANSACT in flight, in its phase or in the next one. -/
inductive GoesOn (tm : Timing) (s : State) : State → Prop
  | startEcho (hf : s.fsm = .sending) (hr : s.status.replyExp = true) :
      GoesOn tm s (startEcho (putOnLine (txFrame s) (transportDiscard s)))
  | echo (hf : s.fsm = .discardingEcho) (hr : (echoRead s).echoRem ≠ 0) : GoesOn tm s (echoRead s)
  | endEcho (hf : s.fsm = .discardingEcho) : GoesOn tm s (endEcho tm (echoRead s))
  | header (hf : s.fsm = .awaitingHeader) (hc : (headerRead s).rxcnt.toNat ≠ 4) : GoesOn tm s (headerRead s)
  | startBody (hf : s.fsm = .awaitingHeader) (hc : (headerRead s).rxcnt.toNat = 4)
      (hl : 3 ≤ (byteAt (headerRead s).rxbuf 3).toNat) (hu : (byteAt (headerRead s).rxbuf 3).toNat ≤ 13) :
      GoesOn tm s (startBody tm (headerRead s))
  | body (hf : s.fsm = .awaitingBody) (hc : (bodyRead s).rxcnt ≠ s.expLen) : GoesOn tm s (bodyRead s)

/-- A completion from a state that differs from `s` within the frame. -/
theorem completes_complete {r : Raised} {s u : State} (hs : u.status = s.status) (hu : EngineFrame s u)
    (hr : resultByte r ∈ engineResults) : Completes s (complete r u) where
  status := by rw [complete_status, hs]
  fsm := rfl
  result := hr
  frame := hu.trans rfl

/-- A header read writes only RXBUF, RXCNT and `rxq` (R150 to R152). -/
theorem headerRead_frame (s : State) :
    headerRead s = { s with
      rxcnt := (headerRead s).rxcnt, rxbuf := (headerRead s).rxbuf, rxq := (headerRead s).rxq } := by
  unfold headerRead
  rcases resync_cases (appendRx (s.rxq.take (4 - s.rxcnt.toNat)) { s with rxq := s.rxq.drop (4 - s.rxcnt.toNat) })
    with ⟨_, e⟩ | ⟨_, e⟩ <;> rw [e] <;> rfl

@[simp] theorem headerRead_status (s : State) : (headerRead s).status = s.status := by rw [headerRead_frame]
@[simp] theorem headerRead_result (s : State) : (headerRead s).result = s.result := by rw [headerRead_frame]
@[simp] theorem headerRead_fsm (s : State) : (headerRead s).fsm = s.fsm := by rw [headerRead_frame]
@[simp] theorem headerRead_echoRem (s : State) : (headerRead s).echoRem = s.echoRem := by rw [headerRead_frame]
@[simp] theorem headerRead_expLen (s : State) : (headerRead s).expLen = s.expLen := by rw [headerRead_frame]
@[simp] theorem headerRead_deadline (s : State) : (headerRead s).deadline = s.deadline := by rw [headerRead_frame]
@[simp] theorem headerRead_now (s : State) : (headerRead s).now = s.now := by rw [headerRead_frame]
@[simp] theorem headerRead_line (s : State) : (headerRead s).line = s.line := by rw [headerRead_frame]
@[simp] theorem headerRead_draws (s : State) : (headerRead s).draws = s.draws := by rw [headerRead_frame]

/-- A header read is within the frame of an engine turn. -/
theorem headerRead_engineFrame (s : State) : EngineFrame s (headerRead s) := by
  simpa [EngineFrame] using headerRead_frame s

/-- SENDING completes, or goes on to the echo where a reply is expected (R144 to R146). -/
theorem sendingStep_completes_or_goes_on {tm : Timing} {a : Answer} {s t : State} (hf : s.fsm = .sending)
    (h : sendingStep a s = .next t) : Completes s t ∨ GoesOn tm s t := by
  obtain ⟨_, ⟨_, rfl⟩ | ⟨_, _, _, rfl⟩ | ⟨_, _, _, hr, rfl⟩ | ⟨_, _, _, _, rfl⟩⟩ := sendingStep_cases h
  · exact .inl (completes_complete rfl rfl (by decide))
  · exact .inl (completes_complete rfl rfl (by decide))
  · exact .inr (.startEcho hf hr)
  · exact .inl (completes_complete rfl rfl (by decide))

/-- DISCARDING_ECHO completes on a failed read alone (R147 to R149). -/
theorem echoStep_completes_or_goes_on {tm : Timing} {a : Answer} {s t : State} (hf : s.fsm = .discardingEcho)
    (h : echoStep tm a s = .next t) : Completes s t ∨ GoesOn tm s t := by
  obtain ⟨_, ⟨_, rfl⟩ | ⟨_, _, _, rfl, ⟨_, rfl⟩ | ⟨hr, _, rfl⟩⟩⟩ := echoStep_cases h
  · exact .inl (completes_complete rfl rfl (by decide))
  · exact .inr (.endEcho hf)
  · exact .inr (.echo hf hr)

/-- AWAITING_HEADER completes on a failed read, a bad length or its deadline (R150 to R156). -/
theorem headerStep_completes_or_goes_on {tm : Timing} {a : Answer} {s t : State} (hf : s.fsm = .awaitingHeader)
    (h : headerStep tm a s = .next t) : Completes s t ∨ GoesOn tm s t := by
  have hs := headerRead_status s
  have hu := headerRead_engineFrame s
  obtain ⟨_, ⟨_, rfl⟩ | ⟨_, _, ht⟩⟩ := headerStep_cases h
  · exact .inl (completes_complete rfl rfl (by decide))
  · obtain rfl : t = afterHeaderRead tm (headerRead s) := ht
    rcases afterHeaderRead_cases tm (headerRead s) with ⟨hc, e⟩ | ⟨_, _, e⟩ | ⟨hc, _, e⟩ <;> rw [e]
    · rcases headerComplete_cases tm (headerRead s) with ⟨_, e⟩ | ⟨_, e⟩ | ⟨hl, hm, e⟩ <;> rw [e]
      · exact .inl (completes_complete hs hu (by decide))
      · exact .inl (completes_complete hs hu (by decide))
      · exact .inr (.startBody hf hc hl hm)
    · exact .inl (completes_complete hs hu (by decide))
    · exact .inr (.header hf hc)

/-- AWAITING_BODY completes on a failed read, its last byte or its deadline (R157 to R159). -/
theorem bodyStep_completes_or_goes_on {tm : Timing} {a : Answer} {s t : State} (hf : s.fsm = .awaitingBody)
    (h : bodyStep a s = .next t) : Completes s t ∨ GoesOn tm s t := by
  obtain ⟨_, ⟨_, rfl⟩ | ⟨_, _, _, rfl, _, ht⟩⟩ := bodyStep_cases h
  · exact .inl (completes_complete rfl rfl (by decide))
  · change afterBodyRead (bodyRead s) = .next t at ht
    rcases afterBodyRead_cases ht with ⟨_, hd⟩ | ⟨_, _, rfl⟩ | ⟨hc, _, rfl⟩
    · rcases finalDecode_cases hd with ⟨_, rfl⟩ | ⟨_, rfl⟩
      · exact .inl (completes_complete rfl rfl (by decide))
      · exact .inl (completes_complete rfl rfl (by decide))
    · exact .inl (completes_complete rfl rfl (by decide))
    · exact .inr (.body hf hc)

/-- A turn of the engine while BUSY = 0 changes nothing; one in flight completes the TRANSACT or goes on (R143). -/
theorem engineStep_completes_or_goes_on {tm : Timing} {a : Answer} {s t : State} (h : engineStep tm a s = .next t) :
    (s.status.busy = false ∧ t = s) ∨ (s.status.busy = true ∧ (Completes s t ∨ GoesOn tm s t)) := by
  rcases engineStep_cases h with h | ⟨hb, hf, h⟩ | ⟨hb, hf, h⟩ | ⟨hb, hf, h⟩ | ⟨hb, hf, h⟩
  · exact .inl h
  · exact .inr ⟨hb, sendingStep_completes_or_goes_on hf h⟩
  · exact .inr ⟨hb, echoStep_completes_or_goes_on hf h⟩
  · exact .inr ⟨hb, headerStep_completes_or_goes_on hf h⟩
  · exact .inr ⟨hb, bodyStep_completes_or_goes_on hf h⟩

/-! ### What a turn that goes on leaves -/

/-- A turn that goes on is within the frame of an engine turn. -/
theorem GoesOn.frame {tm : Timing} {s t : State} (h : GoesOn tm s t) : EngineFrame s t := by
  cases h with
  | startEcho | echo | endEcho | body => rfl
  | header => exact headerRead_engineFrame s
  | startBody => exact (headerRead_engineFrame s).trans rfl

/-- A turn that goes on writes neither STATUS nor RESULT, and stays in a phase (R143, R255). -/
theorem GoesOn.status_result_fsm {tm : Timing} {s t : State} (h : GoesOn tm s t) :
    t.status = s.status ∧ t.result = s.result ∧ t.fsm ≠ .idle := by
  cases h with
  | startEcho | endEcho => exact ⟨rfl, rfl, nofun⟩
  | echo hf | body hf => exact ⟨rfl, rfl, fun e => nomatch hf.symm.trans e⟩
  | header hf => simp [hf]
  | startBody => simp

/-- No engine turn writes TXBUF or TXLEN (R30, R31). -/
theorem engineStep_tx {tm : Timing} {a : Answer} {s t : State} (h : engineStep tm a s = .next t) :
    t.txbuf = s.txbuf ∧ t.txlen = s.txlen := by
  rcases engineStep_completes_or_goes_on h with ⟨_, rfl⟩ | ⟨_, hc | hg⟩
  · exact ⟨rfl, rfl⟩
  · exact hc.frame.tx
  · exact hg.frame.tx

end Sys2Proof.Machine

/-! PROOFS. The invariant of the transceiver is kept by every agent step (spec/10_state.md R23 to R35;
spec/41_transaction.md section 7). -/

namespace Sys2Proof.Machine

/-! ### The receive buffer -/

/-- RXBUF is 0x00 from RXCNT on (R32). -/
def RxClean (s : State) : Prop := ∀ i, s.rxcnt.toNat ≤ i → byteAt s.rxbuf i = 0

/-- The form in which `FlightInv` says it. -/
theorem rxClean_iff (s : State) : RxClean s ↔ ∀ j : Fin 16, s.rxcnt.toNat ≤ j.val → s.rxbuf[j] = 0 := by
  constructor
  · intro h j hj
    rw [← h j hj, byteAt_eq _ _ j.isLt]
    rfl
  · intro h i hi
    rcases Nat.lt_or_ge i 16 with h16 | h16
    · rw [byteAt_eq _ _ h16]
      exact h ⟨i, h16⟩ hi
    · exact byteAt_ge _ _ h16

theorem appendRx_clean {bytes : List Byte} {s : State} (h : RxClean s) (hl : s.rxcnt.toNat + bytes.length ≤ 16) :
    RxClean (appendRx bytes s) := by
  intro i hi
  rw [appendRx_count hl] at hi
  rcases Nat.lt_or_ge i 16 with h16 | h16
  · rw [appendRx_byteAt _ _ _ h16, if_neg (by omega)]
    exact h i (by omega)
  · exact byteAt_ge _ _ h16

theorem shiftRx_clean {s : State} (h : RxClean s) : RxClean (shiftRx s) := by
  intro i hi
  rw [shiftRx_count] at hi
  rcases Nat.lt_or_ge i 16 with h16 | h16
  · rw [shiftRx_byteAt _ _ h16, if_neg (by omega)]
    split
    · rfl
    · exact h i (by omega)
  · exact byteAt_ge _ _ h16

theorem resync_clean {s : State} (h : RxClean s) : RxClean (resync s) := by
  rcases resync_cases s with ⟨_, e⟩ | ⟨_, e⟩ <;> rw [e]
  · exact shiftRx_clean h
  · exact h

/-- An append keeps the bytes held before it (R151). -/
theorem appendRx_byteAt_lt {bytes : List Byte} {s : State} {i : Nat} (hi : i < s.rxcnt.toNat) (h16 : i < 16) :
    byteAt (appendRx bytes s).rxbuf i = byteAt s.rxbuf i := by
  rw [appendRx_byteAt _ _ _ h16, if_neg (by omega)]

/-- A resync leaves at most as many bytes, and no four of them without a header in front (R152, R153). -/
theorem resync_count {s : State} (h : s.rxcnt.toNat ≤ 4) :
    (resync s).rxcnt.toNat ≤ 4 ∧
    ((resync s).rxcnt.toNat = 4 → hdrOk (byteAt (resync s).rxbuf 0) (byteAt (resync s).rxbuf 1) = true) := by
  rcases resync_cases s with ⟨_, e⟩ | ⟨hn, e⟩ <;> rw [e]
  · rw [shiftRx_count]
    exact ⟨by omega, fun _ => by omega⟩
  · refine ⟨h, fun h4 => ?_⟩
    simpa [needsShift, h4] using hn

/-- A header read asks for no byte past the fourth, so it appends inside RXBUF (R150, R151). -/
theorem headerRead_clean {s : State} (h : RxClean s) (hc : s.rxcnt.toNat ≤ 3) : RxClean (headerRead s) := by
  refine resync_clean (appendRx_clean h ?_)
  change s.rxcnt.toNat + (s.rxq.take (4 - s.rxcnt.toNat)).length ≤ 16
  rw [List.length_take]
  omega

/-- A header read holds at most four bytes, and four only with the header in front (R150, R153). -/
theorem headerRead_count {s : State} (hc : s.rxcnt.toNat ≤ 3) :
    (headerRead s).rxcnt.toNat ≤ 4 ∧
    ((headerRead s).rxcnt.toNat = 4 →
      hdrOk (byteAt (headerRead s).rxbuf 0) (byteAt (headerRead s).rxbuf 1) = true) := by
  refine resync_count ?_
  rw [appendRx_rxcnt, BitVec.toNat_ofNat, List.length_take]
  change (s.rxcnt.toNat + _) % 2 ^ 8 ≤ 4
  omega

/-- A body read asks for no byte past EXP_LEN, so it appends inside RXBUF (R151, R157). -/
theorem bodyRead_clean {s : State} (h : RxClean s) (hc : s.rxcnt.toNat ≤ s.expLen.toNat) (he : s.expLen.toNat ≤ 16) :
    RxClean (bodyRead s) := by
  refine appendRx_clean h ?_
  change s.rxcnt.toNat + (s.rxq.take (s.expLen.toNat - s.rxcnt.toNat)).length ≤ 16
  rw [List.length_take]
  omega

/-- A body read never passes EXP_LEN (R157). -/
theorem bodyRead_count {s : State} (hc : s.rxcnt.toNat ≤ s.expLen.toNat) :
    s.rxcnt.toNat ≤ (bodyRead s).rxcnt.toNat ∧ (bodyRead s).rxcnt.toNat ≤ s.expLen.toNat := by
  unfold bodyRead
  rw [appendRx_rxcnt, BitVec.toNat_ofNat, List.length_take]
  change s.rxcnt.toNat ≤ (s.rxcnt.toNat + _) % 2 ^ 8 ∧ (s.rxcnt.toNat + _) % 2 ^ 8 ≤ s.expLen.toNat
  have := s.expLen.isLt
  omega

/-! ### The parts of the invariant -/

/-- The part of the invariant that speaks of the engine's phases. -/
abbrev PhaseInv (tm : Timing) (s : State) : Prop := SendingInv s ∧ EchoInv s ∧ HeaderInv tm s ∧ BodyInv tm s

/-- What `BodyInv` says of a state in AWAITING_BODY, by name. -/
structure BodyHeld (tm : Timing) (s : State) : Prop where
  replyExp : s.status.replyExp = true
  four_le : 4 ≤ s.rxcnt.toNat
  lt_expLen : s.rxcnt.toNat < s.expLen.toNat
  expLen_le : s.expLen.toNat ≤ 16
  hdr : hdrOk (byteAt s.rxbuf 0) (byteAt s.rxbuf 1) = true
  expLen : s.expLen.toNat = 3 + (byteAt s.rxbuf 3).toNat
  plausible : 3 ≤ (byteAt s.rxbuf 3).toNat
  deadline : s.deadline ≤ s.now + tm.body

/-- `BodyHeld` is the body of `BodyInv`, with RXBUF read by number. -/
theorem bodyInv_iff (tm : Timing) (s : State) : BodyInv tm s ↔ (s.fsm = .awaitingBody → BodyHeld tm s) := by
  have h0 : byteAt s.rxbuf 0 = s.rxbuf[0] := byteAt_eq _ _ (by omega)
  have h1 : byteAt s.rxbuf 1 = s.rxbuf[1] := byteAt_eq _ _ (by omega)
  have h3 : byteAt s.rxbuf 3 = s.rxbuf[3] := byteAt_eq _ _ (by omega)
  unfold BodyInv
  rw [← h0, ← h1, ← h3]
  exact forall_congr' fun _ =>
    ⟨fun ⟨hr, h4, hlt, hle, hh, he, hp, hd⟩ => ⟨hr, h4, hlt, hle, hh, he, hp, hd⟩,
      fun ⟨hr, h4, hlt, hle, hh, he, hp, hd⟩ => ⟨hr, h4, hlt, hle, hh, he, hp, hd⟩⟩

/-! What holds of a phase is asked only in that phase, and none is asked in IDLE (R24). -/

theorem phaseInv_of_idle {tm : Timing} {s : State} (hf : s.fsm = .idle) : PhaseInv tm s :=
  ⟨fun e => (nomatch hf.symm.trans e), fun e => (nomatch hf.symm.trans e), fun e => (nomatch hf.symm.trans e),
    fun e => (nomatch hf.symm.trans e)⟩

theorem phaseInv_of_echo {tm : Timing} {s : State} (hf : s.fsm = .discardingEcho) (h : EchoInv s) : PhaseInv tm s :=
  ⟨fun e => (nomatch hf.symm.trans e), h, fun e => (nomatch hf.symm.trans e), fun e => (nomatch hf.symm.trans e)⟩

theorem phaseInv_of_header {tm : Timing} {s : State} (hf : s.fsm = .awaitingHeader) (h : HeaderInv tm s) :
    PhaseInv tm s :=
  ⟨fun e => (nomatch hf.symm.trans e), fun e => (nomatch hf.symm.trans e), h, fun e => (nomatch hf.symm.trans e)⟩

theorem phaseInv_of_body {tm : Timing} {s : State} (hf : s.fsm = .awaitingBody) (h : BodyHeld tm s) : PhaseInv tm s :=
  ⟨fun e => (nomatch hf.symm.trans e), fun e => (nomatch hf.symm.trans e), fun e => (nomatch hf.symm.trans e),
    (bodyInv_iff tm s).mpr fun _ => h⟩

/-- TXBUF and TXLEN alone decide `TxInv`. -/
theorem txInv_of_tx_eq {s t : State} (hb : t.txbuf = s.txbuf) (hl : t.txlen = s.txlen) (hi : TxInv s) : TxInv t := by
  unfold TxInv
  rw [hb, hl]
  exact hi

theorem txInv_of_zero {t : State} (hb : t.txbuf = zeroBuf) (hl : t.txlen = 0) : TxInv t := by
  refine ⟨.inl hl, fun j _ => ?_⟩
  rw [hb]
  exact getElem_zeroBuf j.val j.isLt

/-- An encoded frame meets the invariant of TXBUF (R30, R31). -/
theorem txInv_of_frame {id cmd n : Byte} {p : Vector Byte 10} {f : List Byte} {t : State}
    (hf : encodeFrame id cmd n p = .ok f) (hb : t.txbuf = bufOfList f) (hl : t.txlen = BitVec.ofNat 8 f.length) :
    TxInv t := by
  obtain ⟨hlen, hn⟩ := encodeFrame_length hf
  have ht : t.txlen.toNat = f.length := hl ▸ toNat_ofNat_encodeFrame_length hf
  refine ⟨.inr (by omega), fun j hj => ?_⟩
  rw [hb]
  change (bufOfList f)[j.val] = 0
  rw [getElem_bufOfList, List.getD_eq_default _ _ (by omega)]

/-- While BUSY = 0 only STATUS, RESULT and TXBUF are bound by the invariant. -/
theorem inv_of_not_busy {tm : Timing} {s : State} (hs : StatusInv s) (ht : TxInv s) (hb : s.status.busy = false) :
    TransceiverInv tm s := by
  have hf : s.fsm = .idle := by
    obtain ⟨hbusy, _⟩ := hs
    by_contra hf
    cases hb.symm.trans (hbusy.mpr hf)
  exact ⟨hs, ht, fun h => (nomatch hb.symm.trans h), phaseInv_of_idle hf⟩

/-- A completion with a value of R252 meets the invariant of STATUS and RESULT (R255). -/
theorem statusInv_of_completed {t : State} {st : Status} (hs : t.status = statusOnComplete st) (hf : t.fsm = .idle)
    (hr : t.result ∈ legalResults) : StatusInv t := by
  unfold StatusInv
  rw [hs, hf]
  exact ⟨⟨nofun, fun h => absurd rfl h⟩, nofun, nofun, hr⟩

theorem engineResults_legal : ∀ r ∈ engineResults, r ∈ legalResults := by decide

/-! ### The engine keeps the invariant -/

/-- A completion only has to leave STATUS, RESULT and TXBUF right: no phase is left (R255). -/
theorem Completes.inv {tm : Timing} {s t : State} (h : Completes s t) (hi : TransceiverInv tm s) :
    TransceiverInv tm t := by
  obtain ⟨_, ht, _⟩ := hi
  obtain ⟨hb, hl⟩ := h.frame.tx
  refine inv_of_not_busy (statusInv_of_completed h.status h.fsm (engineResults_legal _ h.result))
    (txInv_of_tx_eq hb hl ht) ?_
  rw [h.status]
  rfl

/-- A turn that goes on leaves STATUS and RESULT, so DONE = 0 and RESULT = 0x00 stay (R23). -/
theorem GoesOn.statusInv {tm : Timing} {s t : State} (h : GoesOn tm s t) (hb : s.status.busy = true)
    (hi : StatusInv s) : StatusInv t := by
  obtain ⟨hs, hr, hf⟩ := h.status_result_fsm
  obtain ⟨_, hrest⟩ := hi
  unfold StatusInv
  rw [hs, hr]
  exact ⟨iff_of_true hb hf, hrest⟩

/-- What the invariant says of RXBUF in flight is `RxClean`. -/
theorem rxClean_of_inv {tm : Timing} {s : State} (hb : s.status.busy = true) (hi : TransceiverInv tm s) :
    RxClean s := by
  obtain ⟨_, _, hflight, _⟩ := hi
  obtain ⟨_, hclean⟩ := hflight hb
  exact (rxClean_iff s).mpr hclean

/-- RXBUF past RXCNT stays 0x00 through every read (R32, R151, R152). -/
theorem GoesOn.rxClean {tm : Timing} {s t : State} (h : GoesOn tm s t) (hb : s.status.busy = true)
    (hi : TransceiverInv tm s) : RxClean t := by
  have hclean := rxClean_of_inv hb hi
  obtain ⟨_, _, _, _, _, hheader, hbody⟩ := hi
  cases h with
  | startEcho | echo | endEcho => exact hclean
  | header hf | startBody hf =>
    obtain ⟨_, hc, _⟩ := hheader hf
    exact headerRead_clean hclean hc
  | body hf =>
    have held := (bodyInv_iff tm s).mp hbody hf
    exact bodyRead_clean hclean held.lt_expLen.le held.expLen_le

/-- ECHO_REM only falls (R147). -/
theorem echoRead_echoRem_le (s : State) : (echoRead s).echoRem.toNat ≤ s.echoRem.toNat := by
  unfold echoRead
  rw [countEcho_echoRem, BitVec.toNat_ofNat]
  change (s.echoRem.toNat - _) % 2 ^ 8 ≤ s.echoRem.toNat
  have := s.echoRem.isLt
  omega

/-- Header completion with a plausible length enters AWAITING_BODY with what holds there (R153 to R155). -/
theorem startBody_held {tm : Timing} {s : State} (hr : s.status.replyExp = true) (hc : s.rxcnt.toNat = 4)
    (hh : hdrOk (byteAt s.rxbuf 0) (byteAt s.rxbuf 1) = true) (hl : 3 ≤ (byteAt s.rxbuf 3).toNat)
    (hu : (byteAt s.rxbuf 3).toNat ≤ 13) : BodyHeld tm (startBody tm s) := by
  have he : (startBody tm s).expLen.toNat = 3 + (byteAt s.rxbuf 3).toNat := by
    rw [startBody_expLen, BitVec.toNat_ofNat]
    omega
  exact {
    replyExp := hr, hdr := hh, expLen := he, plausible := hl, deadline := le_rfl
    four_le := hc.ge, lt_expLen := by rw [he, startBody_rxcnt]; omega, expLen_le := by omega }

/-- A body read keeps the header (R151, R157). -/
theorem BodyHeld.byteAt_bodyRead {tm : Timing} {s : State} (h : BodyHeld tm s) {i : Nat} (hi : i < 4) :
    byteAt (bodyRead s).rxbuf i = byteAt s.rxbuf i :=
  appendRx_byteAt_lt (hi.trans_le h.four_le) (by omega)

/-- An incomplete body read stays in AWAITING_BODY with what holds there (R157). -/
theorem bodyRead_held {tm : Timing} {s : State} (h : BodyHeld tm s) (hc : (bodyRead s).rxcnt ≠ s.expLen) :
    BodyHeld tm (bodyRead s) := by
  obtain ⟨hge, hle⟩ := bodyRead_count h.lt_expLen.le
  exact {
    replyExp := h.replyExp, expLen_le := h.expLen_le, deadline := h.deadline
    four_le := h.four_le.trans hge
    lt_expLen := lt_of_le_of_ne hle fun e => hc (BitVec.eq_of_toNat_eq e)
    hdr := by rw [h.byteAt_bodyRead (by omega), h.byteAt_bodyRead (by omega)]; exact h.hdr
    expLen := by rw [h.byteAt_bodyRead (by omega)]; exact h.expLen
    plausible := by rw [h.byteAt_bodyRead (by omega)]; exact h.plausible }

/-- A turn that goes on meets what holds of the phase it leads to (R142, R146 to R157). -/
theorem GoesOn.phaseInv {tm : Timing} {s t : State} (h : GoesOn tm s t) (hb : s.status.busy = true)
    (hi : TransceiverInv tm s) : PhaseInv tm t := by
  obtain ⟨_, _, hflight, hsending, hecho, hheader, hbody⟩ := hi
  cases h with
  | startEcho hf hr =>
    obtain ⟨htx, _⟩ := hflight hb
    obtain ⟨hc, _, he, hd⟩ := hsending hf
    have hpos : 1 ≤ s.txlen.toNat := by omega
    exact phaseInv_of_echo rfl fun _ => ⟨hr, hpos, le_rfl, hc, he, hd⟩
  | echo hf hne =>
    obtain ⟨hr, _, hle, hc, he, hd⟩ := hecho hf
    have hpos : (echoRead s).echoRem.toNat ≠ 0 := fun e => hne (BitVec.eq_of_toNat_eq e)
    exact phaseInv_of_echo hf fun _ => ⟨hr, by omega, (echoRead_echoRem_le s).trans hle, hc, he, hd⟩
  | endEcho hf =>
    obtain ⟨hr, _, _, hc, he, _⟩ := hecho hf
    have hcnt : s.rxcnt.toNat ≤ 3 := by rw [hc]; decide
    exact phaseInv_of_header rfl fun _ => ⟨hr, hcnt, he, le_rfl⟩
  | header hf hne =>
    obtain ⟨hr, hc, he, hd⟩ := hheader hf
    obtain ⟨h4, _⟩ := headerRead_count hc
    exact phaseInv_of_header (by rw [headerRead_fsm, hf]) fun _ => by
      rw [headerRead_status, headerRead_expLen, headerRead_deadline, headerRead_now]
      exact ⟨hr, by omega, he, hd⟩
  | startBody hf h4 hl hu =>
    obtain ⟨hr, hc, _⟩ := hheader hf
    obtain ⟨_, hhdr⟩ := headerRead_count hc
    exact phaseInv_of_body rfl (startBody_held (by rw [headerRead_status, hr]) h4 (hhdr h4) hl hu)
  | body hf hne => exact phaseInv_of_body hf (bodyRead_held ((bodyInv_iff tm s).mp hbody hf) hne)

theorem GoesOn.inv {tm : Timing} {s t : State} (h : GoesOn tm s t) (hb : s.status.busy = true)
    (hi : TransceiverInv tm s) : TransceiverInv tm t := by
  obtain ⟨hbuf, hlen⟩ := h.frame.tx
  have hclean := (rxClean_iff t).mp (h.rxClean hb hi)
  have hphase := h.phaseInv hb hi
  obtain ⟨hs, ht, hflight, _⟩ := hi
  obtain ⟨htx, _⟩ := hflight hb
  exact ⟨h.statusInv hb hs, txInv_of_tx_eq hbuf hlen ht, fun _ => ⟨hlen ▸ htx, hclean⟩, hphase⟩

/-- The engine keeps the invariant, in whatever phase it is and whatever the transport answers. -/
theorem engineStep_keeps_inv {tm : Timing} {a : Answer} {s t : State} (hi : TransceiverInv tm s)
    (h : engineStep tm a s = .next t) : TransceiverInv tm t := by
  rcases engineStep_completes_or_goes_on h with ⟨_, rfl⟩ | ⟨hb, hc | hg⟩
  · exact hi
  · exact hc.inv hi
  · exact hg.inv hb hi

end Sys2Proof.Machine

/-! PROOFS. The invariants of the state, over every agent step (spec/10_state.md R23 to R35). -/

namespace Sys2Proof.Machine

/-! ### The host keeps the invariant -/

/-- An access that starts nothing writes no register the invariant binds, in flight or idle (R185 to R187). -/
theorem HostFrame.inv {tm : Timing} {s t : State} (h : HostFrame s t) (hi : TransceiverInv tm s) :
    TransceiverInv tm t := by
  cases hb : s.status.busy with
  | false =>
    obtain ⟨hs, ht, _⟩ := hi
    rw [h.frame]
    exact inv_of_not_busy hs ht hb
  | true =>
    obtain ⟨hcnt, hbuf⟩ := h.receive hb
    rw [h.frame, hcnt, hbuf]
    exact hi

theorem zero_legal : (0x00 : Byte) ∈ legalResults := by decide

/-- Every refusal of EncodeFrame is a RESULT of R252. -/
theorem encodeRequest_error_legal {s : State} {r : Raised} (h : encodeRequest s = .error r) :
    resultByte r ∈ legalResults := by
  rcases encodeFrame_error h with rfl | rfl <;> decide

/-- Every verdict of DecodeFrame is a RESULT of R252. -/
theorem raisedBy_decodeFrame_legal (b : Vector Byte 16) (c : Nat) :
    resultByte (raisedBy (decodeFrame b c)) ∈ legalResults := by
  cases h : decodeFrame b c with
  | ok f => exact (by decide : resultByte ⟨.ok, 0⟩ ∈ legalResults)
  | error r => rcases decodeFrame_error h with rfl | rfl | rfl | rfl | rfl | rfl <;> decide

/-- An accepted start keeps the invariant of TXBUF and TXLEN (R30, R31). -/
theorem Started.txInv {s t : State} (h : Started s t) (hi : TxInv s) : TxInv t := by
  rcases h.tx with ⟨hb, hl⟩ | ⟨hb, hl⟩ | ⟨f, hf, hb, hl⟩
  · exact txInv_of_tx_eq hb hl hi
  · exact txInv_of_zero hb hl
  · exact txInv_of_frame hf hb hl

/-- A command that completes in its own step ends in a state of the invariant (R255). -/
theorem complete_inv {tm : Timing} {r : Raised} {s : State} (hr : resultByte r ∈ legalResults)
    (ht : TxInv (complete r s)) : TransceiverInv tm (complete r s) :=
  inv_of_not_busy (statusInv_of_completed rfl rfl hr) ht rfl

/-- ENCODE completes in its own step with a frame or nothing in TXBUF (R116). -/
theorem encodeCommand_inv {tm : Timing} {s : State} (ht : TxInv (encodeCommand s)) :
    TransceiverInv tm (encodeCommand s) := by
  rcases encodeCommand_cases s with ⟨f, _, e⟩ | ⟨r, hr, e⟩ <;> rw [e] at ht ⊢
  · exact complete_inv (by decide) ht
  · exact complete_inv (encodeRequest_error_legal hr) ht

/-- DECODE completes in its own step and leaves TXBUF (R117). -/
theorem decodeCommand_inv {tm : Timing} {s : State} (ht : TxInv (decodeCommand s)) :
    TransceiverInv tm (decodeCommand s) := by
  rcases decodeCommand_cases s with ⟨_, e⟩ | ⟨_, e⟩ <;> rw [e] at ht ⊢
  · exact complete_inv (by decide) ht
  · exact complete_inv (raisedBy_decodeFrame_legal _ _) ht

/-- A TRANSACT completes at once, or starts in SENDING with the session as session_init left it (R140, R142). -/
theorem transactCommand_inv {tm : Timing} {want : Bool} {s : State}
    (ht : TxInv (transactCommand want (acceptStart s))) :
    TransceiverInv tm (transactCommand want (acceptStart s)) := by
  rcases transactCommand_cases want (acceptStart s) with ⟨r, hr, e⟩ | ⟨f, hf, e⟩ <;> rw [e] at ht ⊢
  · exact complete_inv (encodeRequest_error_legal hr) ht
  · obtain ⟨hlen, _⟩ := encodeFrame_length hf
    have htx : 6 ≤ (BitVec.ofNat 8 f.length).toNat := by
      rw [toNat_ofNat_encodeFrame_length hf]
      omega
    exact ⟨⟨iff_of_true rfl nofun, fun _ => rfl, fun _ => rfl, zero_legal⟩, ht,
      fun _ => ⟨htx, fun j _ => getElem_zeroBuf j.val j.isLt⟩, fun _ => ⟨rfl, rfl, rfl, rfl⟩, nofun, nofun, nofun⟩

/-- An accepted start leads to a state of the invariant (R184). -/
theorem Started.inv {tm : Timing} {s t : State} (h : Started s t) (hi : TransceiverInv tm s) :
    TransceiverInv tm t := by
  obtain ⟨_, htx, _⟩ := hi
  have ht := h.txInv htx
  rcases h with rfl | rfl | ⟨want, rfl⟩
  · exact encodeCommand_inv ht
  · exact decodeCommand_inv ht
  · exact transactCommand_inv ht

/-! ### Every agent keeps the invariant -/

/-- Reset leads to a state of the invariant from any state (R280). -/
theorem platformReset_inv (tm : Timing) (s : State) : TransceiverInv tm (platformReset s) :=
  inv_of_not_busy (s := platformReset s) (by decide : StatusInv State.reset) (txInv_of_zero rfl rfl) rfl

/-- A tick only leaves a deadline further behind (R262). -/
theorem tick_inv {tm : Timing} {s : State} (hi : TransceiverInv tm s) : TransceiverInv tm (tick s) := by
  obtain ⟨hs, ht, hflight, hsending, hecho, hheader, hbody⟩ := hi
  refine ⟨hs, ht, hflight, hsending, hecho, fun hf => ?_, fun hf => ?_⟩
  · obtain ⟨hr, hc, he, hd⟩ := hheader hf
    exact ⟨hr, hc, he, hd.trans (Nat.add_le_add_right (Nat.le_succ s.now) _)⟩
  · obtain ⟨hr, h4, hlt, hle, hh, he, hp, hd⟩ := hbody hf
    exact ⟨hr, h4, hlt, hle, hh, he, hp, hd.trans (Nat.add_le_add_right (Nat.le_succ s.now) _)⟩

/-- Every agent step keeps the invariant, whatever the timing is. -/
theorem perform_keeps_inv {tm : Timing} {e : Event} {s t : State} (hi : TransceiverInv tm s)
    (h : perform tm e s = .next t) : TransceiverInv tm t := by
  rcases perform_cases h with ⟨w, i, _, hd, hx⟩ | ⟨a, _, hx⟩ | ⟨b, _, rfl⟩ | ⟨_, rfl⟩ | ⟨_, rfl⟩
  · rcases access_cases hd hx with hframe | ⟨_, _, hstart⟩
    · exact hframe.inv hi
    · exact hstart.inv hi
  · exact engineStep_keeps_inv hi hx
  · exact hi
  · exact tick_inv hi
  · exact platformReset_inv tm s

/-- Settles O38: taking the next agent step off touches nothing the invariant speaks of, and every agent keeps it. -/
theorem stepKeepsTheInvariant : Obligations.StepKeepsTheInvariant := by
  intro s t hi h
  rcases step_cases h with ⟨e, rest, _, hp⟩ | ⟨_, hp⟩
  · exact perform_keeps_inv (s := { s with upcoming := rest }) hi hp
  · exact perform_keeps_inv (s := { s with draws := s.draws + 1 }) hi hp

/-! ### TXBUF -/

theorem HostFrame.tx {s t : State} (h : HostFrame s t) : t.txbuf = s.txbuf ∧ t.txlen = s.txlen := by
  rw [h.frame]
  exact ⟨rfl, rfl⟩

/-- Settles O32: of all agent steps only an accepted start and a reset write TXBUF or TXLEN. -/
theorem onlyEncodeFillsTxbuf : Obligations.OnlyEncodeFillsTxbuf := by
  intro tm e s t h hne
  have hchanged : ¬ (t.txbuf = s.txbuf ∧ t.txlen = s.txlen) := fun ⟨hb, hl⟩ => hne.elim (· hb) (· hl)
  rcases perform_cases h with ⟨w, i, rfl, hd, hx⟩ | ⟨a, rfl, hx⟩ | ⟨b, rfl, rfl⟩ | ⟨rfl, rfl⟩ | ⟨rfl, rfl⟩
  · rcases access_cases hd hx with hframe | ⟨hb, hw, hstart⟩
    · exact absurd hframe.tx hchanged
    · rcases hstart.tx with hsame | ⟨hbuf, hlen⟩ | ⟨f, hf, hbuf, hlen⟩
      · exact absurd hsame hchanged
      · exact .inl ⟨hbuf, hlen, .inr ⟨hb, w, rfl, hw⟩⟩
      · exact .inr ⟨hb, ⟨w, rfl, hw⟩, f, hf, hbuf, hlen ▸ toNat_ofNat_encodeFrame_length hf⟩
  · exact absurd (engineStep_tx hx) hchanged
  · exact absurd ⟨rfl, rfl⟩ hchanged
  · exact absurd ⟨rfl, rfl⟩ hchanged
  · exact .inl ⟨rfl, rfl, .inl rfl⟩

/-- A buffer that was filled with an encoded frame holds a frame DecodeFrame accepts (R113, R114). -/
theorem txHoldsFrame_of_encodeFrame {id cmd n : Byte} {p : Vector Byte 10} {f : List Byte} {t : State}
    (hf : encodeFrame id cmd n p = .ok f) (hb : t.txbuf = bufOfList f) (hl : t.txlen.toNat = f.length) :
    TxHoldsFrame t := by
  obtain ⟨hlen, hn⟩ := encodeFrame_length hf
  right
  rw [hb, hl]
  exact decodeFrame_encodeFrame hf (take_bufOfList f (by omega)) le_rfl

/-- Every agent step leaves TXBUF alone, empties it, or fills it with a frame that decodes (R67). -/
theorem perform_keeps_frame {tm : Timing} {e : Event} {s t : State} (hi : TxHoldsFrame s)
    (h : perform tm e s = .next t) : TxHoldsFrame t := by
  by_cases hsame : t.txbuf = s.txbuf ∧ t.txlen = s.txlen
  · obtain ⟨hb, hl⟩ := hsame
    unfold TxHoldsFrame
    rw [hb, hl]
    exact hi
  · rcases onlyEncodeFillsTxbuf tm e s t h (not_and_or.mp hsame) with ⟨hb, hl, _⟩ | ⟨_, _, f, hf, hb, hl⟩
    · exact .inl ⟨hl, hb⟩
    · exact txHoldsFrame_of_encodeFrame hf hb hl

/-- Settles O40: a step leaves TXBUF alone, empties it, or fills it with an encoded frame, which decodes. -/
theorem stepKeepsTxbufAFrame : Obligations.StepKeepsTxbufAFrame := by
  intro s t hi h
  rcases step_cases h with ⟨e, rest, _, hp⟩ | ⟨_, hp⟩
  · exact perform_keeps_frame (s := { s with upcoming := rest }) hi hp
  · exact perform_keeps_frame (s := { s with draws := s.draws + 1 }) hi hp

/-! ### RESULT -/

theorem HostFrame.result {s t : State} (h : HostFrame s t) : t.result = s.result := by
  rw [h.frame]

/-- Settles O29: the engine writes RESULT only where it completes, the host only by an accepted start. -/
theorem resultIsWrittenByCompletionStartOrReset : Obligations.ResultIsWrittenByCompletionStartOrReset := by
  intro tm e s t h hne
  rcases perform_cases h with ⟨w, i, rfl, hd, hx⟩ | ⟨a, rfl, hx⟩ | ⟨b, rfl, rfl⟩ | ⟨rfl, rfl⟩ | ⟨rfl, rfl⟩
  · rcases access_cases hd hx with hframe | ⟨hb, hw, hstart⟩
    · exact absurd hframe.result hne
    · exact .inr (.inr ⟨hb, ⟨w, rfl, hw⟩, hstart.result⟩)
  · rcases engineStep_completes_or_goes_on hx with ⟨_, rfl⟩ | ⟨hb, hc | hg⟩
    · exact absurd rfl hne
    · exact .inr (.inl ⟨hb, ⟨a, rfl⟩, congrArg Status.done hc.status, congrArg Status.busy hc.status, hc.fsm⟩)
    · obtain ⟨_, hr, _⟩ := hg.status_result_fsm
      exact absurd hr hne
  · exact absurd rfl hne
  · exact absurd rfl hne
  · exact .inl rfl

/-! ### The engine has a step while BUSY = 1 -/

/-- SENDING stops only on a TXLEN past TXBUF (R144). -/
theorem sendingStep_runs (a : Answer) {s : State} (h : s.txlen.toNat ≤ 16) : Runs (sendingStep a s) := by
  unfold sendingStep
  rw [if_neg (show ¬ Config.maxFrame < _ from Nat.not_lt.mpr h)]
  cases a with
  | err => exact ⟨_, rfl⟩
  | ok u =>
    rw [transportWrite_ok]
    dsimp only
    split
    · exact ⟨_, rfl⟩
    · split <;> exact ⟨_, rfl⟩

/-- DISCARDING_ECHO stops only with no echo byte left to read (R64, R147). -/
theorem echoStep_runs (tm : Timing) (a : Answer) {s : State} (h : s.echoRem ≠ 0) : Runs (echoStep tm a s) := by
  unfold echoStep
  rw [if_neg h]
  cases a <;> exact ⟨_, rfl⟩

/-- AWAITING_HEADER stops only with the header already held (R64, R150). -/
theorem headerStep_runs (tm : Timing) (a : Answer) {s : State} (h : s.rxcnt.toNat < 4) :
    Runs (headerStep tm a s) := by
  unfold headerStep
  rw [if_neg (show ¬ Config.hdrBytes ≤ _ from Nat.not_le.mpr h)]
  cases a <;> exact ⟨_, rfl⟩

/-- The final decode of a body that is complete: "No other result is possible here" (R158). -/
theorem finalDecode_runs {s : State} (hh : hdrOk (byteAt s.rxbuf 0) (byteAt s.rxbuf 1) = true)
    (hl : 3 ≤ (byteAt s.rxbuf 3).toNat) (hc : s.rxcnt.toNat = 3 + (byteAt s.rxbuf 3).toNat)
    (hle : s.rxcnt.toNat ≤ 16) : Runs (finalDecode s) := by
  have hverdict := decodeFrame_whole hh hl (hc ▸ hle) hc.ge
  split at hverdict
  · exact ⟨complete ⟨.ok, 0⟩ s, by rw [finalDecode, hverdict]⟩
  · exact ⟨complete ⟨.checksumMismatch, 0⟩ s, by rw [finalDecode, hverdict]; exact if_pos rfl⟩

/-- A complete body read is decoded, any other times out or waits (R157, R159). -/
theorem afterBodyRead_runs {tm : Timing} {s : State} (h : BodyHeld tm s) : Runs (afterBodyRead (bodyRead s)) := by
  unfold afterBodyRead
  split
  next hc =>
    have hcnt : (bodyRead s).rxcnt.toNat = s.expLen.toNat := congrArg BitVec.toNat hc
    refine finalDecode_runs ?_ ?_ ?_ (hcnt.le.trans h.expLen_le)
    · rw [h.byteAt_bodyRead (by omega), h.byteAt_bodyRead (by omega)]
      exact h.hdr
    · rw [h.byteAt_bodyRead (by omega)]
      exact h.plausible
    · rw [h.byteAt_bodyRead (by omega), hcnt]
      exact h.expLen
  next => split <;> exact ⟨_, rfl⟩

/-- AWAITING_BODY always has a byte to read and room for it (R64, R151, R157). -/
theorem bodyStep_runs {tm : Timing} (a : Answer) {s : State} (h : BodyHeld tm s) : Runs (bodyStep a s) := by
  have hlt := h.lt_expLen
  have hle := h.expLen_le
  have hfits : s.rxcnt.toNat + (s.rxq.take (s.expLen.toNat - s.rxcnt.toNat)).length ≤ 16 := by
    rw [List.length_take]
    omega
  unfold bodyStep
  rw [if_neg (Nat.not_le.mpr hlt)]
  cases a with
  | err => exact ⟨_, rfl⟩
  | ok u =>
    rw [transportRead_ok]
    dsimp only
    rw [consume_rxcnt, if_neg (show ¬ Config.maxFrame < _ from Nat.not_lt.mpr hfits)]
    exact afterBodyRead_runs h

/-- In a state of the invariant the engine's turn in flight gives a next state (R143). -/
theorem engineStep_runs {tm : Timing} (a : Answer) {s : State} (hb : s.status.busy = true)
    (hi : TransceiverInv tm s) : Runs (engineStep tm a s) := by
  obtain ⟨⟨hphase, _⟩, ⟨htx, _⟩, _, _, hecho, hheader, hbody⟩ := hi
  unfold engineStep
  rw [if_pos hb]
  cases hf : s.fsm with
  | idle => exact absurd hf (hphase.mp hb)
  | sending => exact sendingStep_runs a (htx.elim (fun h => by rw [h]; decide) And.right)
  | discardingEcho =>
    obtain ⟨_, hpos, _⟩ := hecho hf
    exact echoStep_runs tm a fun h => by rw [h] at hpos; exact absurd hpos (by decide)
  | awaitingHeader =>
    obtain ⟨_, hc, _⟩ := hheader hf
    exact headerStep_runs tm a (Nat.lt_succ_of_le hc)
  | awaitingBody => exact bodyStep_runs a ((bodyInv_iff tm s).mp hbody hf)

/-- Settles O19: in flight the invariant gives the engine a step, which completes or stays in a phase. -/
theorem engineStepsExactlyWhileBusy : Obligations.EngineStepsExactlyWhileBusy := by
  refine ⟨fun tm a s hb => ?idle, fun tm a s hb hi => ?busy⟩
  case idle =>
    unfold engineStep
    rw [if_neg (by rw [hb]; exact Bool.false_ne_true)]
  case busy =>
    obtain ⟨t, ht⟩ := engineStep_runs a hb hi
    refine ⟨t, ht, ?_⟩
    rcases engineStep_completes_or_goes_on ht with ⟨hb', _⟩ | ⟨_, hc | hg⟩
    · cases hb.symm.trans hb'
    · have hbusy : t.status.busy = false := congrArg Status.busy hc.status
      exact ⟨fun h => (nomatch hbusy.symm.trans h), fun _ => ⟨hc.fsm, congrArg Status.done hc.status⟩⟩
    · obtain ⟨hs, _, hf⟩ := hg.status_result_fsm
      have hbusy : t.status.busy = true := (congrArg Status.busy hs).trans hb
      exact ⟨fun _ => hf, fun h => (nomatch hbusy.symm.trans h)⟩

end Sys2Proof.Machine

/-! PROOFS. What a SENDING step does, and that it alone writes the line (spec/41_transaction.md R144 to R146;
spec/20_memory.md R63). -/

namespace Sys2Proof.Machine

/-! ### The engine's turn, by phase -/

theorem engineStep_of_sending {tm : Timing} {a : Answer} {s : State} (hb : s.status.busy = true)
    (hf : s.fsm = .sending) : engineStep tm a s = sendingStep a s := by
  simp [engineStep, hb, hf]

theorem engineStep_of_echo {tm : Timing} {a : Answer} {s : State} (hb : s.status.busy = true)
    (hf : s.fsm = .discardingEcho) : engineStep tm a s = echoStep tm a s := by
  simp [engineStep, hb, hf]

theorem engineStep_of_header {tm : Timing} {a : Answer} {s : State} (hb : s.status.busy = true)
    (hf : s.fsm = .awaitingHeader) : engineStep tm a s = headerStep tm a s := by
  simp [engineStep, hb, hf]

theorem engineStep_of_body {tm : Timing} {a : Answer} {s : State} (hb : s.status.busy = true)
    (hf : s.fsm = .awaitingBody) : engineStep tm a s = bodyStep a s := by
  simp [engineStep, hb, hf]

/-! ### SENDING -/

/-- Settles O20: the answer decides which case of `sendingStep_cases` the step, which exists, is in. -/
theorem sendingDiscardsWritesAndGoesOn : Obligations.SendingDiscardsWritesAndGoesOn := by
  intro tm s hb hf hl
  have turn : ∀ a, ∃ t, engineStep tm a s = .next t ∧ sendingStep a s = .next t := fun a => by
    obtain ⟨t, ht⟩ := sendingStep_runs a hl
    exact ⟨t, (engineStep_of_sending hb hf).trans ht, ht⟩
  refine ⟨?failed, fun c hc => ?short, fun hr => ?noReply, fun hr => ?reply⟩
  case failed =>
    obtain ⟨t, he, ht⟩ := turn .err
    obtain ⟨_, ⟨_, rfl⟩ | ⟨_, ha, _⟩ | ⟨_, ha, _⟩ | ⟨_, ha, _⟩⟩ := sendingStep_cases ht
    · exact ⟨_, he⟩
    all_goals cases ha
  case short =>
    obtain ⟨t, he, ht⟩ := turn (.ok (s.txlen.toNat - c))
    have hsent : s.txlen.toNat - (s.txlen.toNat - c) = c := by omega
    obtain ⟨_, ⟨ha, _⟩ | ⟨_, ha, _, rfl⟩ | ⟨_, ha, hw, _⟩ | ⟨_, ha, hw, _⟩⟩ := sendingStep_cases ht <;> cases ha
    · rw [he, hsent, txFrame, List.take_take, Nat.min_eq_left hc.le]
      rfl
    all_goals omega
  case noReply =>
    obtain ⟨t, he, ht⟩ := turn (.ok 0)
    obtain ⟨_, ⟨ha, _⟩ | ⟨_, ha, hw, _⟩ | ⟨_, _, _, hr', _⟩ | ⟨_, _, _, _, rfl⟩⟩ := sendingStep_cases ht
    · cases ha
    · cases ha
      exact absurd rfl hw
    · cases hr.symm.trans hr'
    · exact he
  case reply =>
    obtain ⟨t, he, ht⟩ := turn (.ok 0)
    obtain ⟨_, ⟨ha, _⟩ | ⟨_, ha, hw, _⟩ | ⟨_, _, _, _, rfl⟩ | ⟨_, _, _, hr', _⟩⟩ := sendingStep_cases ht
    · cases ha
    · cases ha
      exact absurd rfl hw
    · exact he
    · cases hr.symm.trans hr'

/-! ### The line -/

theorem echoStep_line {tm : Timing} {a : Answer} {s t : State} (h : echoStep tm a s = .next t) :
    t.line = s.line := by
  obtain ⟨_, ⟨_, rfl⟩ | ⟨_, _, _, rfl, ⟨_, rfl⟩ | ⟨_, _, rfl⟩⟩⟩ := echoStep_cases h <;> rfl

theorem headerComplete_line (tm : Timing) (s : State) : (headerComplete tm s).line = s.line := by
  rcases headerComplete_cases tm s with ⟨_, e⟩ | ⟨_, e⟩ | ⟨_, _, e⟩ <;> rw [e] <;> rfl

theorem headerStep_line {tm : Timing} {a : Answer} {s t : State} (h : headerStep tm a s = .next t) :
    t.line = s.line := by
  obtain ⟨_, ⟨_, rfl⟩ | ⟨_, _, ht⟩⟩ := headerStep_cases h
  · rfl
  · obtain rfl : t = afterHeaderRead tm (headerRead s) := ht
    rw [← headerRead_line s]
    rcases afterHeaderRead_cases tm (headerRead s) with ⟨_, e⟩ | ⟨_, _, e⟩ | ⟨_, _, e⟩ <;> rw [e]
    · exact headerComplete_line tm _
    · rfl

theorem bodyStep_line {a : Answer} {s t : State} (h : bodyStep a s = .next t) : t.line = s.line := by
  obtain ⟨_, ⟨_, rfl⟩ | ⟨_, _, _, rfl, _, ht⟩⟩ := bodyStep_cases h
  · rfl
  · rcases afterBodyRead_cases ht with ⟨_, hd⟩ | ⟨_, _, rfl⟩ | ⟨_, _, rfl⟩
    · rcases finalDecode_cases hd with ⟨_, rfl⟩ | ⟨_, rfl⟩ <;> rfl
    · rfl
    · rfl

/-- A turn in SENDING adds to the line, whatever the transport answers; every other turn leaves it (R144). -/
theorem engineStep_line {tm : Timing} {a : Answer} {s t : State} (h : engineStep tm a s = .next t) :
    (s.status.busy = true ∧ s.fsm = .sending ∧ ∃ sent, t.line = s.line ++ sent) ∨ t.line = s.line := by
  rcases engineStep_cases h with ⟨_, rfl⟩ | ⟨hb, hf, h⟩ | ⟨_, _, h⟩ | ⟨_, _, h⟩ | ⟨_, _, h⟩
  · exact .inr rfl
  · obtain ⟨_, ⟨_, rfl⟩ | ⟨_, _, _, rfl⟩ | ⟨_, _, _, _, rfl⟩ | ⟨_, _, _, _, rfl⟩⟩ := sendingStep_cases h <;>
      exact .inl ⟨hb, hf, _, rfl⟩
  · exact .inr (echoStep_line h)
  · exact .inr (headerStep_line h)
  · exact .inr (bodyStep_line h)

theorem HostFrame.line {s t : State} (h : HostFrame s t) : t.line = s.line := by
  rw [h.frame]

/-- A start makes no transport call: the line is written by the engine's SENDING step (R140, R144). -/
theorem Started.line {s t : State} (h : Started s t) : t.line = s.line := by
  rcases h with rfl | rfl | ⟨want, rfl⟩
  · rcases encodeCommand_cases (acceptStart s) with ⟨_, _, e⟩ | ⟨_, _, e⟩ <;> rw [e] <;> rfl
  · rcases decodeCommand_cases (acceptStart s) with ⟨_, e⟩ | ⟨_, e⟩ <;> rw [e] <;> rfl
  · rcases transactCommand_cases want (acceptStart s) with ⟨_, _, e⟩ | ⟨_, _, e⟩ <;> rw [e] <;> rfl

/-- Settles O33: of the agents only the engine writes the line, and of its turns only the one in SENDING. -/
theorem onlySendingWritesTheLine : Obligations.OnlySendingWritesTheLine := by
  intro tm e s t h
  have kept (hl : t.line = s.line) : (∃ sent, t.line = s.line ++ sent) ∧
      (t.line ≠ s.line → ∃ a, e = .engine a ∧ s.status.busy = true ∧ s.fsm = .sending) :=
    ⟨⟨[], by rw [hl, List.append_nil]⟩, fun hne => absurd hl hne⟩
  rcases perform_cases h with ⟨w, i, _, hd, hx⟩ | ⟨a, rfl, hx⟩ | ⟨b, _, rfl⟩ | ⟨_, rfl⟩ | ⟨_, rfl⟩
  · rcases access_cases hd hx with hframe | ⟨_, _, hstart⟩
    · exact kept hframe.line
    · exact kept hstart.line
  · rcases engineStep_line hx with ⟨hb, hf, hsent⟩ | hl
    · exact ⟨hsent, fun _ => ⟨a, rfl, hb, hf⟩⟩
    · exact kept hl
  · exact kept rfl
  · exact kept rfl
  · exact kept rfl

end Sys2Proof.Machine

/-! PROOFS. The exchange as the engine sees it, and what leaves it alone while it waits and once it is over
(spec/20_memory.md R57, R58; spec/42_host_access.md R185 to R187). -/

namespace Sys2Proof.Machine

/-! ### The registers of the exchange -/

/-- What an exchange consists of: its registers, the line and the pending bytes. The request registers, the clock and
the host's record are no part of it. -/
structure Exchange where
  status : Status
  result : Byte
  fsm : FsmState
  txlen : Byte
  txbuf : Vector Byte 16
  rxcnt : Byte
  rxbuf : Vector Byte 16
  echoRem : Byte
  expLen : Byte
  line : List Byte
  rxq : List Byte

/-- The exchange in a state. -/
def exchange (s : State) : Exchange where
  status := s.status
  result := s.result
  fsm := s.fsm
  txlen := s.txlen
  txbuf := s.txbuf
  rxcnt := s.rxcnt
  rxbuf := s.rxbuf
  echoRem := s.echoRem
  expLen := s.expLen
  line := s.line
  rxq := s.rxq

/-! ### Agent steps that leave the exchange to itself -/

/-- A quiet event that is no turn of the engine in flight adds at most a pending byte to the exchange. -/
theorem quiet_step_exchange {tm : Timing} {e : Event} {s t : State} (hq : isQuiet e = true)
    (hn : s.status.busy = true → isEngine e = false) (h : perform tm e s = .next t) :
    exchange t = { exchange s with rxq := s.rxq ++ arrivals [e] } := by
  cases he : isEngine e with
  | false =>
    obtain ⟨_, ht⟩ := quiet_cases hq he h
    rw [ht]
    rfl
  | true =>
    rcases perform_cases h with ⟨_, _, rfl, _⟩ | ⟨a, rfl, hx⟩ | ⟨_, rfl, _⟩ | ⟨rfl, _⟩ | ⟨rfl, _⟩
    · cases he
    · have hb : s.status.busy = false := by
        by_contra hb
        cases he.symm.trans (hn (Bool.eq_true_of_not_eq_false hb))
      rcases engineStep_cases hx with ⟨_, rfl⟩ | ⟨hb', _⟩ | ⟨hb', _⟩ | ⟨hb', _⟩ | ⟨hb', _⟩
      · simp [exchange, arrivals]
      all_goals cases hb.symm.trans hb'
    all_goals cases he

/-- An access that starts no command and writes no receive register is quiet. -/
theorem isQuietAccess_of_not {w : AccessWord} {i : Instr} (hd : decode w = .ok i) (hs : ¬ StartsCommand w)
    (hr : ¬ WritesReceive w) : isQuietAccess w = true := by
  unfold isQuietAccess
  rw [hd]
  cases i with
  | ctrlNop => rfl
  | ctrlEncode => exact absurd (.inl hd) hs
  | ctrlDecode => exact absurd (.inr (.inl hd)) hs
  | ctrlTransact want => exact absurd (.inr (.inr ⟨want, hd⟩)) hs
  | regRead off => rfl
  | regWrite off data =>
    have hoff : ¬ (off.toNat = 0x08 ∨ 0x30 ≤ off.toNat) := fun ho => hr ⟨off, data, hd, ho⟩
    simp only [Bool.and_eq_true, bne_iff_ne, decide_eq_true_eq]
    omega

/-- Settles O30: such a step is quiet, and a quiet step while BUSY = 0 adds at most a pending byte. -/
theorem completedOutcomeIsStable : Obligations.CompletedOutcomeIsStable := by
  intro tm e s t hb h hreset hquiet
  have hq : isQuiet e = true := by
    rcases perform_cases h with ⟨w, i, rfl, hd, _⟩ | ⟨_, rfl, _⟩ | ⟨_, rfl, _⟩ | ⟨rfl, _⟩ | ⟨rfl, _⟩
    · obtain ⟨hs, hr⟩ := hquiet w rfl
      exact isQuietAccess_of_not hd hs hr
    · rfl
    · rfl
    · rfl
    · exact absurd rfl hreset
  have hx := quiet_step_exchange hq (fun hb' => nomatch hb.symm.trans hb') h
  exact ⟨congrArg Exchange.status hx, congrArg Exchange.result hx, congrArg Exchange.txbuf hx,
    congrArg Exchange.txlen hx, congrArg Exchange.rxbuf hx, congrArg Exchange.rxcnt hx,
    congrArg Exchange.echoRem hx, congrArg Exchange.expLen hx⟩

end Sys2Proof.Machine

/-! PROOFS. A run up to its first engine turn, and the premises of R70 to R72 there (spec/20_memory.md). -/

namespace Sys2Proof.Machine

/-! ### Quiet runs -/

/-- No access stops the machine (R188). -/
theorem exec_runs (i : Instr) (s : State) : Runs (exec i s) := by
  cases i <;> exact ⟨_, rfl⟩

/-- From a state of the invariant every quiet event gives a next state (R188, R250). -/
theorem perform_runs {tm : Timing} {e : Event} {s : State} (hi : TransceiverInv tm s) (hq : isQuiet e = true) :
    Runs (perform tm e s) := by
  cases e with
  | access w =>
    cases hd : decode w with
    | error r => simp [isQuiet, isQuietAccess, hd] at hq
    | ok i =>
      obtain ⟨t, ht⟩ := exec_runs i s
      exact ⟨t, (hostStep_of_decode hd s).trans ht⟩
  | engine a =>
    cases hb : s.status.busy with
    | false => exact ⟨s, by simp [perform, engineStep, hb]⟩
    | true => exact engineStep_runs a hb hi
  | arrive b => exact ⟨_, rfl⟩
  | tick => exact ⟨_, rfl⟩
  | reset => cases hq

theorem performAll_runs {tm : Timing} {es : List Event} {s : State} (hi : TransceiverInv tm s)
    (hq : ∀ e ∈ es, isQuiet e = true) : Runs (performAll tm es s) := by
  induction es generalizing s with
  | nil => exact ⟨s, rfl⟩
  | cons e es ih =>
    obtain ⟨hqe, hqs⟩ := List.forall_mem_cons.mp hq
    obtain ⟨u, hu⟩ := perform_runs hi hqe
    obtain ⟨t, ht⟩ := ih (perform_keeps_inv hi hu) hqs
    exact ⟨t, performAll_cons.mpr ⟨u, hu, ht⟩⟩

/-- A quiet run with no turn of the engine in flight adds the bytes that arrive to those pending, and leaves the rest
of the exchange: the wait for the engine's next turn, and everything after a completion. -/
theorem quiet_run_exchange {tm : Timing} {es : List Event} {s t : State} (hq : ∀ e ∈ es, isQuiet e = true)
    (hn : s.status.busy = true → ∀ e ∈ es, isEngine e = false) (h : performAll tm es s = .next t) :
    exchange t = { exchange s with rxq := s.rxq ++ arrivals es } := by
  induction es generalizing s with
  | nil =>
    cases h
    simp [exchange, arrivals]
  | cons e es ih =>
    obtain ⟨hqe, hqs⟩ := List.forall_mem_cons.mp hq
    obtain ⟨u, hu, ht⟩ := performAll_cons.mp h
    have hstep := quiet_step_exchange hqe (fun hb => (List.forall_mem_cons.mp (hn hb)).1) hu
    have hbusy : u.status.busy = s.status.busy := congrArg (fun x => x.status.busy) hstep
    have hq' : u.rxq = s.rxq ++ arrivals [e] := congrArg Exchange.rxq hstep
    rw [ih hqs (fun hb => (List.forall_mem_cons.mp (hn (hbusy ▸ hb))).2) ht, hstep, hq', List.append_assoc,
      ← arrivals_append, List.singleton_append]

/-! ### Traces -/

/-- The events of a run that does not stop are those of its trace. -/
theorem map_fst_runTrace {tm : Timing} {es : List Event} {s t : State} (h : performAll tm es s = .next t) :
    (runTrace tm es s).map Prod.fst = es := by
  induction es generalizing s with
  | nil => rfl
  | cons e es ih =>
    obtain ⟨u, hu, ht⟩ := performAll_cons.mp h
    rw [runTrace_cons hu, List.map_cons, ih ht]

theorem arriving_runTrace {tm : Timing} {es : List Event} {s t : State} (h : performAll tm es s = .next t) :
    arriving (runTrace tm es s) = arrivals es := by
  rw [arriving, map_fst_runTrace h]

theorem arriving_append (tr tr' : List (Event × State)) : arriving (tr ++ tr') = arriving tr ++ arriving tr' := by
  rw [arriving, List.map_append, arrivals_append]
  rfl

/-- A run with an engine step in a phase has an engine turn. -/
theorem exists_engine_of_stepsIn {tm : Timing} {es : List Event} {s t : State} {f : FsmState}
    {p : Event × State} (h : performAll tm es s = .next t) (hp : p ∈ runTrace tm es s) (hf : stepsIn f p = true) :
    ∃ e ∈ es, isEngine e = true := by
  refine ⟨p.1, map_fst_runTrace h ▸ List.mem_map_of_mem hp, ?_⟩
  simp only [stepsIn, Bool.and_eq_true] at hf
  exact hf.1.1

/-! ### The first engine turn -/

/-- A quiet run from `s` to `t`, taken apart at its first engine turn. -/
structure FirstTurn (tm : Timing) (es : List Event) (s t : State) where
  before : List Event
  answer : Answer
  after : List Event
  met : State
  left : State
  events : es = before ++ .engine answer :: after
  quiet : ∀ e ∈ es, isQuiet e = true
  waits : ∀ e ∈ before, isEngine e = false
  wait : performAll tm before s = .next met
  turn : engineStep tm answer met = .next left
  rest : performAll tm after left = .next t

/-- A list of events has no engine turn, or a first one. -/
theorem engine_split (es : List Event) :
    (∀ e ∈ es, isEngine e = false) ∨
    ∃ before a after, es = before ++ .engine a :: after ∧ ∀ e ∈ before, isEngine e = false := by
  induction es with
  | nil => exact .inl nofun
  | cons e es ih =>
    cases he : isEngine e with
    | true =>
      cases e with
      | engine a => exact .inr ⟨[], a, es, rfl, nofun⟩
      | _ => cases he
    | false =>
      rcases ih with hn | ⟨before, a, after, rfl, hn⟩
      · exact .inl (List.forall_mem_cons.mpr ⟨he, hn⟩)
      · exact .inr ⟨e :: before, a, after, rfl, List.forall_mem_cons.mpr ⟨he, hn⟩⟩

/-- A quiet run with an engine turn in it has a first one. -/
theorem exists_firstTurn {tm : Timing} {es : List Event} {s t : State} (hq : ∀ e ∈ es, isQuiet e = true)
    (h : performAll tm es s = .next t) (he : ∃ e ∈ es, isEngine e = true) : Nonempty (FirstTurn tm es s t) := by
  rcases engine_split es with hn | ⟨before, a, after, rfl, hn⟩
  · obtain ⟨e, hmem, he⟩ := he
    cases he.symm.trans (hn e hmem)
  · obtain ⟨u, hu, h⟩ := performAll_append.mp h
    obtain ⟨w, hw, h⟩ := performAll_cons.mp h
    exact ⟨⟨before, a, after, u, w, rfl, hq, hn, hu, hw, h⟩⟩

/-- A count of engine turns above 0 gives a first one. -/
theorem exists_engine_of_count {es : List Event} {n : Nat} (h : n + 1 ≤ (es.filter isEngine).length) :
    ∃ e ∈ es, isEngine e = true := by
  obtain ⟨e, he⟩ := List.exists_mem_of_length_pos (Nat.lt_of_lt_of_le n.succ_pos h)
  exact ⟨e, List.mem_filter.mp he⟩

namespace FirstTurn

variable {tm : Timing} {es : List Event} {s t : State} (k : FirstTurn tm es s t)

/-- The wait's trace, up to the turn. -/
def waitTrace : List (Event × State) := runTrace tm k.before s

/-- The turn in the trace, with the state it meets. -/
def entry : Event × State := (.engine k.answer, k.met)

/-- The trace of the run after the turn. -/
def restTrace : List (Event × State) := runTrace tm k.after k.left

theorem quiet_before : ∀ e ∈ k.before, isQuiet e = true := fun e he =>
  k.quiet e (k.events ▸ List.mem_append_left _ he)

theorem quiet_after : ∀ e ∈ k.after, isQuiet e = true := fun e he =>
  k.quiet e (k.events ▸ List.mem_append_right _ (List.mem_cons_of_mem _ he))

/-- The turn meets the exchange as it was, with the bytes that arrived meanwhile pending. -/
theorem exchange_met : exchange k.met = { exchange s with rxq := s.rxq ++ arrivals k.before } :=
  quiet_run_exchange k.quiet_before (fun _ => k.waits) k.wait

theorem met_status : k.met.status = s.status := congrArg Exchange.status k.exchange_met

theorem met_rxq : k.met.rxq = s.rxq ++ arrivals k.before := congrArg Exchange.rxq k.exchange_met

theorem met_txlen : k.met.txlen = s.txlen := congrArg Exchange.txlen k.exchange_met

/-- The frame in TXBUF is the one of the run's first state (R30, R144). -/
theorem met_txFrame : txFrame k.met = txFrame s :=
  congrArg (fun x => x.txbuf.toList.take x.txlen.toNat) k.exchange_met

theorem arrivals_eq : arrivals es = arrivals k.before ++ arrivals k.after := by
  conv_lhs => rw [k.events, arrivals_append]
  rfl

/-- The turn is one of the run's, and the others come after it. -/
theorem count_engine : (es.filter isEngine).length = (k.after.filter isEngine).length + 1 := by
  have hn : k.before.filter isEngine = [] := by simpa using k.waits
  conv_lhs => rw [k.events, List.filter_append, hn]
  rfl

theorem trace_eq : runTrace tm es s = k.waitTrace ++ k.entry :: k.restTrace := by
  conv_lhs => rw [k.events, runTrace_append k.wait, runTrace_cons (show perform tm (.engine _) _ = _ from k.turn)]
  rfl

theorem arriving_wait : arriving k.waitTrace = arrivals k.before := arriving_runTrace k.wait

theorem arriving_rest : arriving k.restTrace = arrivals k.after := arriving_runTrace k.rest

theorem arriving_entry_cons (tr : List (Event × State)) : arriving (k.entry :: tr) = arriving tr := rfl

/-- No engine step is in the wait. -/
theorem not_stepsIn_wait (f : FsmState) : ∀ p ∈ k.waitTrace, stepsIn f p = false := fun p hp => by
  have hmem : p.1 ∈ k.before := map_fst_runTrace k.wait ▸ List.mem_map_of_mem hp
  simp [stepsIn, k.waits _ hmem]

theorem bnot_stepsIn_wait (f : FsmState) : ∀ p ∈ k.waitTrace, (!stepsIn f p) = true := fun p hp => by
  rw [k.not_stepsIn_wait f p hp]
  rfl

theorem stepsIn_entry (f : FsmState) : stepsIn f k.entry = (k.met.status.busy && k.met.fsm == f) := by
  simp [stepsIn, FirstTurn.entry, isEngine]

/-! Up to the first engine step in a phase and from it on: the turn is that step, or the step comes later. -/

theorem beforeStepIn_of_entry {f : FsmState} (h : stepsIn f k.entry = true) :
    beforeStepIn f (runTrace tm es s) = k.waitTrace := by
  rw [k.trace_eq, beforeStepIn, List.takeWhile_append_of_pos (k.bnot_stepsIn_wait f)]
  simp [h]

theorem beforeStepIn_of_not_entry {f : FsmState} (h : stepsIn f k.entry = false) :
    beforeStepIn f (runTrace tm es s) = k.waitTrace ++ k.entry :: beforeStepIn f k.restTrace := by
  rw [k.trace_eq, beforeStepIn, List.takeWhile_append_of_pos (k.bnot_stepsIn_wait f)]
  simp [h, beforeStepIn]

theorem fromStepIn_of_entry {f : FsmState} (h : stepsIn f k.entry = true) :
    fromStepIn f (runTrace tm es s) = k.entry :: k.restTrace := by
  rw [k.trace_eq, fromStepIn, List.dropWhile_append_of_pos (k.bnot_stepsIn_wait f)]
  simp [h]

theorem fromStepIn_of_not_entry {f : FsmState} (h : stepsIn f k.entry = false) :
    fromStepIn f (runTrace tm es s) = fromStepIn f k.restTrace := by
  rw [k.trace_eq, fromStepIn, List.dropWhile_append_of_pos (k.bnot_stepsIn_wait f)]
  simp [h, fromStepIn]

/-- The run after a SENDING step is what follows the turn, if the turn is that step. -/
theorem afterSending_eq (h : stepsIn .sending k.entry = true) : afterSending (runTrace tm es s) = k.restTrace :=
  congrArg (List.drop 1) (k.fromStepIn_of_entry h)

theorem find?_sending (h : stepsIn .sending k.entry = true) :
    (runTrace tm es s).find? (stepsIn .sending) = some k.entry := by
  have hwait : k.waitTrace.find? (stepsIn .sending) = none :=
    List.find?_eq_none.mpr fun p hp => Bool.eq_false_iff.mp (k.not_stepsIn_wait .sending p hp)
  rw [k.trace_eq, List.find?_append, hwait]
  simp [h]

/-- The frame sent is the one that TXBUF holds from the start on (R30, R144). -/
theorem sentFrame_eq (h : stepsIn .sending k.entry = true) : sentFrame (runTrace tm es s) = txFrame s := by
  rw [sentFrame, k.find?_sending h]
  exact k.met_txFrame

/-- NO-FAULT on the run is NO-FAULT after the turn, and the turn's own call is answered (R72). -/
theorem noFault (h : NoFault (runTrace tm es s)) : answeredWhole k.entry = true ∧ NoFault k.restTrace := by
  rw [k.trace_eq] at h
  exact ⟨h _ (List.mem_append_right _ List.mem_cons_self),
    fun p hp => h p (List.mem_append_right _ (List.mem_cons_of_mem _ hp))⟩

/-- Under NO-FAULT a turn in flight is answered `Ok` (R65, R72). -/
theorem exists_answer (h : NoFault (runTrace tm es s)) (hb : k.met.status.busy = true) : ∃ u, k.answer = .ok u := by
  obtain ⟨ha, _⟩ := k.noFault h
  cases hans : k.answer with
  | ok u => exact ⟨u, rfl⟩
  | err => simp [answeredWhole, FirstTurn.entry, hans, hb] at ha

end FirstTurn

end Sys2Proof.Machine

/-! PROOFS. The engine's turn in each phase where the transport answers `Ok`, with the bytes pending that the reference
line delivers (spec/41_transaction.md R144 to R158; spec/20_memory.md R72). -/

namespace Sys2Proof.Machine

/-! ### Received bytes in RXBUF -/

/-- An append to a buffer that holds a list holds the longer list (R151). -/
theorem appendRx_bufOfList {l bytes : List Byte} {s : State} (hb : s.rxbuf = bufOfList l)
    (hc : s.rxcnt.toNat = l.length) : (appendRx bytes s).rxbuf = bufOfList (l ++ bytes) := by
  refine buf_ext fun i hi => ?_
  rw [appendRx_byteAt _ _ _ hi, hb, hc, byteAt_eq _ _ hi, byteAt_eq _ _ hi, getElem_bufOfList, getElem_bufOfList]
  rcases Nat.lt_or_ge i l.length with hlt | hge
  · rw [if_neg (by omega), List.getD_append _ _ _ _ hlt]
  · rw [List.getD_append_right _ _ _ _ hge, List.getD_eq_default l _ hge]
    split
    · rfl
    · exact (List.getD_eq_default _ _ (by omega)).symm

/-- An append of nothing. -/
theorem appendRx_nil (s : State) : appendRx [] s = s := by
  have hbuf : (appendRx [] s).rxbuf = s.rxbuf := buf_ext fun i hi => by
    rw [appendRx_byteAt _ _ _ hi, if_neg (by simp)]
  have hcnt : (appendRx [] s).rxcnt = s.rxcnt := by simp
  calc appendRx [] s
      = { s with rxbuf := (appendRx [] s).rxbuf, rxcnt := (appendRx [] s).rxcnt } := rfl
    _ = s := by rw [hbuf, hcnt]

/-- The first bytes of a frame in RXBUF are the frame's. -/
theorem byteAt_bufOfList_take {l : List Byte} {i n : Nat} (hi : i < n) (h16 : i < 16) :
    byteAt (bufOfList (l.take n)) i = byteAt (bufOfList l) i := by
  rw [byteAt_eq _ _ h16, byteAt_eq _ _ h16, getElem_bufOfList, getElem_bufOfList]
  simp [List.getD_eq_getElem?_getD, hi]

/-- A whole frame: received as a whole, it is what DecodeFrame accepts (R71, R114). -/
structure WholeFrame (f : List Byte) : Prop where
  length_le : f.length ≤ 16
  decodes : decodeFrame (bufOfList f) f.length = .ok f.length

/-- What EncodeFrame builds is whole (R113, R114). -/
theorem wholeFrame_of_encodeFrame {id cmd n : Byte} {p : Vector Byte 10} {f : List Byte}
    (hf : encodeFrame id cmd n p = .ok f) : WholeFrame f := by
  obtain ⟨hl, hn⟩ := encodeFrame_length hf
  exact ⟨by omega, decodeFrame_encodeFrame hf (take_bufOfList f (by omega)) le_rfl⟩

/-- The length a whole frame declares is its own (R114, R155). -/
theorem WholeFrame.length_eq {f : List Byte} (h : WholeFrame f) :
    f.length = 3 + (byteAt (bufOfList f) 3).toNat ∧ 3 ≤ (byteAt (bufOfList f) 3).toNat := by
  obtain ⟨hl, _, h3, _⟩ := decodeFrame_ok h.decodes
  exact ⟨hl, h3⟩

/-- A length register holds a whole frame's length (R33, R35). -/
theorem WholeFrame.toNat_length {f : List Byte} (h : WholeFrame f) : (BitVec.ofNat 8 f.length).toNat = f.length := by
  have := h.length_le
  rw [BitVec.toNat_ofNat]
  omega

/-! ### The phases -/

/-- The exchange is in flight in a phase, with the bytes `rx` received and 0x00 after them in RXBUF (R24, R32). -/
structure InPhase (f : FsmState) (rx : List Byte) (x : Exchange) : Prop where
  busy : x.status.busy = true
  fsm : x.fsm = f
  rxbuf : x.rxbuf = bufOfList rx
  rxcnt : x.rxcnt.toNat = rx.length

/-- A header read of a whole frame: its first four bytes, and no resync (R150 to R152). -/
theorem headerRead_wholeFrame {f : List Byte} {s : State} (hw : WholeFrame f)
    (hp : InPhase .awaitingHeader [] (exchange s)) (hq : s.rxq = f) :
    headerRead s = { s with rxbuf := bufOfList (f.take 4), rxcnt := 4, rxq := f.drop 4 } := by
  obtain ⟨hlen, _⟩ := hw.length_eq
  obtain ⟨_, hhdr, _⟩ := decodeFrame_ok hw.decodes
  have hcnt : s.rxcnt.toNat = 0 := hp.rxcnt
  have hbuf : (appendRx (f.take 4) (consume 4 s)).rxbuf = bufOfList (f.take 4) :=
    appendRx_bufOfList (l := []) hp.rxbuf hp.rxcnt
  have hfour : (appendRx (f.take 4) (consume 4 s)).rxcnt = 4 := by
    rw [appendRx_rxcnt, consume_rxcnt, hcnt, List.length_take, Nat.min_eq_left (by omega)]
    rfl
  have hresync : resync (appendRx (f.take 4) (consume 4 s)) = appendRx (f.take 4) (consume 4 s) := by
    rcases resync_cases (appendRx (f.take 4) (consume 4 s)) with ⟨hn, _⟩ | ⟨_, e⟩
    · rw [needsShift, hbuf, byteAt_bufOfList_take (by omega) (by omega), byteAt_bufOfList_take (by omega) (by omega),
        hhdr, Bool.not_true, Bool.and_false] at hn
      cases hn
    · exact e
  calc headerRead s
      = resync (appendRx (f.take 4) (consume 4 s)) := by rw [headerRead, hcnt, hq, consume, hq]
    _ = { s with
          rxbuf := (appendRx (f.take 4) (consume 4 s)).rxbuf, rxcnt := (appendRx (f.take 4) (consume 4 s)).rxcnt,
          rxq := s.rxq.drop 4 } := by rw [hresync]; rfl
    _ = { s with rxbuf := bufOfList (f.take 4), rxcnt := 4, rxq := f.drop 4 } := by rw [hbuf, hfour, hq]

/-- A body read of a whole frame: the rest of it (R151, R157). -/
theorem bodyRead_wholeFrame {f : List Byte} {s : State} (hw : WholeFrame f)
    (hp : InPhase .awaitingBody (f.take 4) (exchange s)) (hexp : s.expLen = BitVec.ofNat 8 f.length)
    (hq : s.rxq = f.drop 4) :
    bodyRead s = { s with rxbuf := bufOfList f, rxcnt := BitVec.ofNat 8 f.length, rxq := [] } := by
  obtain ⟨hlen, _⟩ := hw.length_eq
  have hcnt : s.rxcnt.toNat = 4 := hp.rxcnt.trans (by rw [List.length_take]; omega)
  have hread : s.expLen.toNat - s.rxcnt.toNat = (f.drop 4).length := by
    rw [hexp, hw.toNat_length, hcnt, List.length_drop]
  have hbuf : (appendRx (f.drop 4) (consume (f.drop 4).length s)).rxbuf = bufOfList (f.take 4 ++ f.drop 4) :=
    appendRx_bufOfList hp.rxbuf hp.rxcnt
  have hall : (appendRx (f.drop 4) (consume (f.drop 4).length s)).rxcnt = BitVec.ofNat 8 f.length := by
    rw [appendRx_rxcnt, consume_rxcnt, hcnt, List.length_drop, Nat.add_sub_cancel' (by omega)]
  calc bodyRead s
      = appendRx (f.drop 4) (consume (f.drop 4).length s) := by rw [bodyRead, hread, hq, List.take_length, consume, hq]
    _ = { s with
          rxbuf := (appendRx (f.drop 4) (consume (f.drop 4).length s)).rxbuf,
          rxcnt := (appendRx (f.drop 4) (consume (f.drop 4).length s)).rxcnt,
          rxq := s.rxq.drop (f.drop 4).length } := rfl
    _ = { s with rxbuf := bufOfList f, rxcnt := BitVec.ofNat 8 f.length, rxq := [] } := by
      rw [hbuf, hall, List.take_append_drop, hq, List.drop_length]

/-! ### The turn of each phase -/

section
variable {tm : Timing} {u : Nat} {s t : State}

/-- SENDING with a whole write where a reply is expected (R144, R146). -/
theorem sending_turn_reply (hp : InPhase .sending [] (exchange s)) (hl : s.txlen.toNat ≤ 16)
    (hr : s.status.replyExp = true) (h : engineStep tm (.ok 0) s = .next t) :
    exchange t = { exchange s with
      line := s.line ++ txFrame s, echoRem := s.txlen, fsm := .discardingEcho, rxq := [] } := by
  obtain ⟨_, _, _, hreply⟩ := sendingDiscardsWritesAndGoesOn tm s hp.busy hp.fsm hl
  cases (hreply hr).symm.trans h
  rfl

/-- SENDING with a whole write where no reply is expected (R144, R145). -/
theorem sending_turn_noReply (hp : InPhase .sending [] (exchange s)) (hl : s.txlen.toNat ≤ 16)
    (hr : s.status.replyExp = false) (h : engineStep tm (.ok 0) s = .next t) :
    exchange t = { exchange s with
      line := s.line ++ txFrame s, result := 0x00, status := statusOnComplete s.status, fsm := .idle, rxq := [] } := by
  obtain ⟨_, _, hnone, _⟩ := sendingDiscardsWritesAndGoesOn tm s hp.busy hp.fsm hl
  cases (hnone hr).symm.trans h
  rfl

/-- DISCARDING_ECHO with the whole echo pending (R147, R149). -/
theorem echo_turn (hp : InPhase .discardingEcho [] (exchange s)) (hle : s.echoRem.toNat ≤ s.rxq.length)
    (h : engineStep tm (.ok u) s = .next t) :
    exchange t = { exchange s with echoRem := 0, fsm := .awaitingHeader, rxq := s.rxq.drop s.echoRem.toNat } := by
  have hzero : (echoRead s).echoRem = 0 := by
    rw [echoRead, countEcho_echoRem, consume_echoRem, Nat.min_eq_left hle, Nat.sub_self]
    rfl
  rw [engineStep_of_echo hp.busy hp.fsm] at h
  obtain ⟨_, ⟨ha, _⟩ | ⟨_, _, _, rfl, ⟨_, rfl⟩ | ⟨hr, _⟩⟩⟩ := echoStep_cases h
  · cases ha
  · change exchange (endEcho tm (echoRead s)) = _
    rw [← hzero]
    rfl
  · exact absurd hzero hr

/-- AWAITING_HEADER with nothing held and a whole frame pending: its first four bytes complete the header
(R150, R153 to R155). -/
theorem header_turn {f : List Byte} (hw : WholeFrame f) (hp : InPhase .awaitingHeader [] (exchange s))
    (hq : s.rxq = f) (h : engineStep tm (.ok u) s = .next t) :
    exchange t = { exchange s with
      rxbuf := bufOfList (f.take 4), rxcnt := 4, expLen := BitVec.ofNat 8 f.length, fsm := .awaitingBody,
      rxq := f.drop 4 } := by
  obtain ⟨hlen, hmin⟩ := hw.length_eq
  have hmax := hw.length_le
  have hread := headerRead_wholeFrame hw hp hq
  have hdeclared : byteAt (headerRead s).rxbuf 3 = byteAt (bufOfList f) 3 := by
    rw [hread]
    exact byteAt_bufOfList_take (by omega) (by omega)
  have hfour : (headerRead s).rxcnt.toNat = 4 := by
    rw [hread]
    rfl
  rw [engineStep_of_header hp.busy hp.fsm] at h
  obtain ⟨_, ⟨ha, _⟩ | ⟨_, _, ht⟩⟩ := headerStep_cases h
  · cases ha
  · obtain rfl : t = afterHeaderRead tm (headerRead s) := ht
    rcases afterHeaderRead_cases tm (headerRead s) with ⟨_, e⟩ | ⟨hne, _⟩ | ⟨hne, _⟩
    · rw [e]
      rcases headerComplete_cases tm (headerRead s) with ⟨hlt, _⟩ | ⟨hgt, _⟩ | ⟨_, _, e⟩
      · rw [hdeclared] at hlt
        omega
      · rw [hdeclared] at hgt
        omega
      · rw [e, startBody, hdeclared, ← hlen, hread]
        rfl
    · exact absurd hfour hne
    · exact absurd hfour hne

/-- AWAITING_BODY with the header held and the rest of a whole frame pending (R157, R158). -/
theorem body_turn {f : List Byte} (hw : WholeFrame f) (hp : InPhase .awaitingBody (f.take 4) (exchange s))
    (hexp : s.expLen = BitVec.ofNat 8 f.length) (hq : s.rxq = f.drop 4) (h : engineStep tm (.ok u) s = .next t) :
    exchange t = { exchange s with
      rxbuf := bufOfList f, rxcnt := BitVec.ofNat 8 f.length, result := 0x00, status := statusOnComplete s.status,
      fsm := .idle, rxq := [] } := by
  have hread := bodyRead_wholeFrame hw hp hexp hq
  have hall : (bodyRead s).rxcnt = (bodyRead s).expLen := by
    rw [hread]
    exact hexp.symm
  rw [engineStep_of_body hp.busy hp.fsm] at h
  obtain ⟨_, ⟨ha, _⟩ | ⟨_, _, _, rfl, _, ht⟩⟩ := bodyStep_cases h
  · cases ha
  · change afterBodyRead (bodyRead s) = .next t at ht
    rcases afterBodyRead_cases ht with ⟨_, hd⟩ | ⟨hne, _⟩ | ⟨hne, _⟩
    · rw [hread] at hd
      rcases finalDecode_cases hd with ⟨_, rfl⟩ | ⟨herr, _⟩
      · rfl
      · rw [hw.toNat_length] at herr
        cases hw.decodes.symm.trans herr
    · exact absurd hall hne
    · exact absurd hall hne

/-- AWAITING_HEADER with nothing held and nothing pending waits, or times out (R150, R156). -/
theorem silent_header_turn (hp : InPhase .awaitingHeader [] (exchange s)) (hq : s.rxq = [])
    (h : engineStep tm (.ok u) s = .next t) :
    exchange t = exchange s ∨
    exchange t = { exchange s with result := 0x02, status := statusOnComplete s.status, fsm := .idle } := by
  have hcnt : s.rxcnt.toNat = 0 := hp.rxcnt
  have hread : headerRead s = s := by
    have hnone : appendRx (s.rxq.take (4 - s.rxcnt.toNat)) { s with rxq := s.rxq.drop (4 - s.rxcnt.toNat) } = s := by
      rw [hq, List.take_nil, List.drop_nil, appendRx_nil, ← hq]
    rw [headerRead, hnone]
    simp [resync, needsShift, hcnt]
  rw [engineStep_of_header hp.busy hp.fsm] at h
  obtain ⟨_, ⟨ha, _⟩ | ⟨_, _, ht⟩⟩ := headerStep_cases h
  · cases ha
  · obtain rfl : t = afterHeaderRead tm (headerRead s) := ht
    rw [hread]
    rcases afterHeaderRead_cases tm s with ⟨hfour, _⟩ | ⟨_, _, e⟩ | ⟨_, _, e⟩
    · omega
    · rw [e]
      exact .inr rfl
    · rw [e]
      exact .inl rfl

end

end Sys2Proof.Machine

/-! PROOFS. Runs from each phase after SENDING on the reference line, the last phase first (spec/20_memory.md R70 to R72;
spec/41_transaction.md R147 to R158). -/

namespace Sys2Proof.Machine

/-! ### Runs under NO-FAULT -/

/-- A quiet run from `s` to `t` on which no call fails (R72). -/
structure CleanRun (tm : Timing) (es : List Event) (s t : State) : Prop where
  quiet : ∀ e ∈ es, isQuiet e = true
  run : performAll tm es s = .next t
  noFault : NoFault (runTrace tm es s)

/-- The states a wait goes through have BUSY as its first one. -/
theorem busy_of_wait {tm : Timing} {es : List Event} {s t : State} (hq : ∀ e ∈ es, isQuiet e = true)
    (hn : ∀ e ∈ es, isEngine e = false) (h : performAll tm es s = .next t) :
    ∀ p ∈ runTrace tm es s, p.2.status.busy = s.status.busy := by
  induction es generalizing s with
  | nil => exact List.forall_mem_nil _
  | cons e es ih =>
    obtain ⟨hqe, hqs⟩ := List.forall_mem_cons.mp hq
    obtain ⟨hne, hns⟩ := List.forall_mem_cons.mp hn
    obtain ⟨u, hu, ht⟩ := performAll_cons.mp h
    have hbusy : u.status.busy = s.status.busy :=
      congrArg (fun x => x.status.busy) (quiet_step_exchange hqe (fun _ => hne) hu)
    rw [runTrace_cons hu]
    exact List.forall_mem_cons.mpr ⟨rfl, hbusy ▸ ih hqs hns ht⟩

namespace FirstTurn

variable {tm : Timing} {es : List Event} {s t : State} (k : FirstTurn tm es s t)

/-- The wait for a turn leaves the phase. -/
theorem inPhase {f : FsmState} {rx : List Byte} (hp : InPhase f rx (exchange s)) : InPhase f rx (exchange k.met) := by
  rw [k.exchange_met]
  exact ⟨hp.busy, hp.fsm, hp.rxbuf, hp.rxcnt⟩

/-- The turn that a phase waits for is an engine step in that phase, and in no other (R143). -/
theorem stepsIn_entry_iff {f g : FsmState} {rx : List Byte} (hp : InPhase f rx (exchange s)) :
    stepsIn g k.entry = true ↔ f = g := by
  have hmet := k.inPhase hp
  have hb : k.met.status.busy = true := hmet.busy
  have hf : k.met.fsm = f := hmet.fsm
  rw [k.stepsIn_entry, hb, hf, Bool.true_and, beq_iff_eq]

theorem cleanRun (h : CleanRun tm es s t) : CleanRun tm k.after k.left t :=
  ⟨k.quiet_after, k.rest, (k.noFault h.noFault).2⟩

/-- Under NO-FAULT the turn that a phase waits for is answered `Ok` (R72). -/
theorem exists_turn {f : FsmState} {rx : List Byte} (h : CleanRun tm es s t) (hp : InPhase f rx (exchange s)) :
    ∃ u, engineStep tm (.ok u) k.met = .next k.left := by
  obtain ⟨u, hu⟩ := k.exists_answer h.noFault (k.inPhase hp).busy
  exact ⟨u, hu ▸ k.turn⟩

/-- Where nothing arrives in flight, nothing arrives in the wait for the turn. -/
theorem arrivals_before_of_silent (hb : s.status.busy = true)
    (h : arriving ((runTrace tm es s).filter fun p => p.2.status.busy) = []) : arrivals k.before = [] := by
  have hall : k.waitTrace.filter (fun p => p.2.status.busy) = k.waitTrace :=
    List.filter_eq_self.mpr fun p hp => (busy_of_wait k.quiet_before k.waits k.wait p hp).trans hb
  rw [k.trace_eq, List.filter_append, arriving_append, hall] at h
  exact k.arriving_wait ▸ (List.append_eq_nil_iff.mp h).1

end FirstTurn

/-- The turn in DISCARDING_ECHO with the echo `g` pending first: it drops the echo and leaves what arrived after it
(R147, R149). -/
theorem FirstTurn.echo_left {tm : Timing} {es : List Event} {s t : State} (k : FirstTurn tm es s t) {u : Nat}
    {g early : List Byte} (hp : InPhase .discardingEcho [] (exchange s)) (hq : s.rxq = [])
    (hg : s.echoRem.toNat = g.length) (hecho : arrivals k.before = g ++ early)
    (h : engineStep tm (.ok u) k.met = .next k.left) :
    exchange k.left = { exchange s with echoRem := 0, fsm := .awaitingHeader, rxq := early } ∧ k.left.rxq = early := by
  have hrem : k.met.echoRem.toNat = g.length := (congrArg (fun x => x.echoRem.toNat) k.exchange_met).trans hg
  have hpending : k.met.rxq = g ++ early := by rw [k.met_rxq, hq, hecho, List.nil_append]
  have hleft := echo_turn (k.inPhase hp) (by rw [hrem, hpending, List.length_append]; omega) h
  rw [hrem, hpending, List.drop_left, k.exchange_met] at hleft
  exact ⟨hleft, congrArg Exchange.rxq hleft⟩

/-- After a completion a quiet run adds to the pending bytes alone (R57, R58). -/
theorem CleanRun.exchange_of_idle {tm : Timing} {es : List Event} {s t : State} (h : CleanRun tm es s t)
    (hb : s.status.busy = false) : exchange t = { exchange s with rxq := s.rxq ++ arrivals es } :=
  quiet_run_exchange h.quiet (fun hb' => nomatch hb.symm.trans hb') h.run

/-! ### With a reply -/

section
variable {tm : Timing} {es : List Event} {s t : State} {f : List Byte}

/-- A run from AWAITING_BODY with the rest of the frame pending completes with OK and the frame in RXBUF (R157, R158). -/
theorem body_run (hw : WholeFrame f) (r : CleanRun tm es s t) (hp : InPhase .awaitingBody (f.take 4) (exchange s))
    (hexp : s.expLen = BitVec.ofNat 8 f.length) (hq : s.rxq = f.drop 4) (hc : 1 ≤ (es.filter isEngine).length)
    (hsilent : arriving ((runTrace tm es s).filter fun p => p.2.status.busy) = []) :
    exchange t = { exchange s with
      rxbuf := bufOfList f, rxcnt := BitVec.ofNat 8 f.length, result := 0x00, status := statusOnComplete s.status,
      fsm := .idle, rxq := arrivals es } := by
  obtain ⟨k⟩ := exists_firstTurn r.quiet r.run (exists_engine_of_count hc)
  have hnone := k.arrivals_before_of_silent hp.busy hsilent
  have hmet := k.exchange_met
  rw [hnone, List.append_nil] at hmet
  have hmexp : k.met.expLen = BitVec.ofNat 8 f.length := (congrArg Exchange.expLen hmet).trans hexp
  have hmq : k.met.rxq = f.drop 4 := by rw [k.met_rxq, hnone, List.append_nil, hq]
  obtain ⟨u, hu⟩ := k.exists_turn r hp
  have hleft := body_turn hw (k.inPhase hp) hmexp hmq hu
  have hidle : k.left.status.busy = false := congrArg (fun x => x.status.busy) hleft
  have hlq : k.left.rxq = [] := congrArg Exchange.rxq hleft
  rw [(k.cleanRun r).exchange_of_idle hidle, hlq, hleft, hmet, k.met_status, k.arrivals_eq, hnone]

/-- A run from AWAITING_HEADER that receives the frame before its next turn completes with OK and the frame in RXBUF
(R150, R155). -/
theorem header_run (hw : WholeFrame f) (r : CleanRun tm es s t) (hp : InPhase .awaitingHeader [] (exchange s))
    (hc : 2 ≤ (es.filter isEngine).length)
    (hreply : s.rxq ++ arriving (beforeStepIn .awaitingHeader (runTrace tm es s)) = f)
    (hsilent : arriving ((fromStepIn .awaitingHeader (runTrace tm es s)).filter fun p => p.2.status.busy) = []) :
    ∃ late, s.rxq ++ arrivals es = f ++ late ∧ exchange t = { exchange s with
      rxbuf := bufOfList f, rxcnt := BitVec.ofNat 8 f.length, expLen := BitVec.ofNat 8 f.length, result := 0x00,
      status := statusOnComplete s.status, fsm := .idle, rxq := late } := by
  obtain ⟨k⟩ := exists_firstTurn r.quiet r.run (exists_engine_of_count hc)
  have hentry : stepsIn .awaitingHeader k.entry = true := (k.stepsIn_entry_iff hp).mpr rfl
  have hfour : (4 : Byte).toNat = (f.take 4).length := by
    have := hw.length_eq
    rw [List.length_take, show (4 : Byte).toNat = 4 from rfl]
    omega
  rw [k.beforeStepIn_of_entry hentry, k.arriving_wait] at hreply
  have hmq : k.met.rxq = f := k.met_rxq.trans hreply
  obtain ⟨u, hu⟩ := k.exists_turn r hp
  have hleft := header_turn hw (k.inPhase hp) hmq hu
  have hbody : InPhase .awaitingBody (f.take 4) (exchange k.left) := by
    rw [hleft]
    exact ⟨(k.inPhase hp).busy, rfl, rfl, hfour⟩
  have hlate : arriving (k.restTrace.filter fun p => p.2.status.busy) = [] := by
    have hbusy : k.entry.2.status.busy = true := (k.inPhase hp).busy
    rw [k.fromStepIn_of_entry hentry, List.filter_cons, if_pos hbusy] at hsilent
    exact hsilent
  have hend := body_run hw (k.cleanRun r) hbody (congrArg Exchange.expLen hleft) (congrArg Exchange.rxq hleft)
    (by rw [k.count_engine] at hc; omega) hlate
  have hstatus : k.left.status = s.status := (congrArg Exchange.status hleft).trans k.met_status
  refine ⟨arrivals k.after, by rw [k.arrivals_eq, ← List.append_assoc, hreply], ?_⟩
  rw [hend, hstatus, hleft, k.exchange_met]

/-- A run from DISCARDING_ECHO that receives the echo `g` before its next turn and the frame before the turn after
completes with OK and the frame in RXBUF (R147 to R149). -/
theorem echo_run {g : List Byte} (hw : WholeFrame f) (r : CleanRun tm es s t)
    (hp : InPhase .discardingEcho [] (exchange s)) (hq : s.rxq = []) (hg : s.echoRem.toNat = g.length)
    (hc : 3 ≤ (es.filter isEngine).length)
    (hecho : g <+: arriving (beforeStepIn .discardingEcho (runTrace tm es s)))
    (hreply : arriving (beforeStepIn .awaitingHeader (runTrace tm es s)) = g ++ f)
    (hsilent : arriving ((fromStepIn .awaitingHeader (runTrace tm es s)).filter fun p => p.2.status.busy) = []) :
    ∃ late, arrivals es = g ++ f ++ late ∧ exchange t = { exchange s with
      echoRem := 0, rxbuf := bufOfList f, rxcnt := BitVec.ofNat 8 f.length, expLen := BitVec.ofNat 8 f.length,
      result := 0x00, status := statusOnComplete s.status, fsm := .idle, rxq := late } := by
  obtain ⟨k⟩ := exists_firstTurn r.quiet r.run (exists_engine_of_count hc)
  have hnot : stepsIn .awaitingHeader k.entry = false := by
    rw [Bool.eq_false_iff, Ne, k.stepsIn_entry_iff hp]
    nofun
  rw [k.beforeStepIn_of_entry ((k.stepsIn_entry_iff hp).mpr rfl), k.arriving_wait] at hecho
  obtain ⟨early, hearly⟩ := hecho
  obtain ⟨u, hu⟩ := k.exists_turn r hp
  obtain ⟨hleft, hlq⟩ := k.echo_left hp hq hg hearly.symm hu
  have hheader : InPhase .awaitingHeader [] (exchange k.left) := by
    rw [hleft]
    exact ⟨hp.busy, rfl, hp.rxbuf, hp.rxcnt⟩
  have hrest : k.left.rxq ++ arriving (beforeStepIn .awaitingHeader k.restTrace) = f := by
    rw [k.beforeStepIn_of_not_entry hnot, arriving_append, k.arriving_wait, k.arriving_entry_cons, ← hearly,
      List.append_assoc] at hreply
    rw [hlq]
    exact List.append_cancel_left hreply
  rw [k.fromStepIn_of_not_entry hnot] at hsilent
  obtain ⟨late, hlate, hend⟩ := header_run hw (k.cleanRun r) hheader (by rw [k.count_engine] at hc; omega) hrest hsilent
  have hstatus : k.left.status = s.status := congrArg Exchange.status hleft
  refine ⟨late, ?_, by rw [hend, hstatus, hleft]⟩
  calc arrivals es = g ++ (k.left.rxq ++ arrivals k.after) := by rw [k.arrivals_eq, ← hearly, hlq, List.append_assoc]
    _ = g ++ f ++ late := by rw [hlate, List.append_assoc]

/-! ### With no reply -/

/-- A run from AWAITING_HEADER on which nothing arrives is still there, or has ended with TIMEOUT_AWAITING_HEADER
(R150, R156). -/
theorem silent_header_run (r : CleanRun tm es s t) (hp : InPhase .awaitingHeader [] (exchange s)) (hq : s.rxq = [])
    (hnone : arrivals es = []) :
    exchange t = exchange s ∨
    exchange t = { exchange s with result := 0x02, status := statusOnComplete s.status, fsm := .idle } := by
  induction hc : (es.filter isEngine).length generalizing es s with
  | zero =>
    have hn : ∀ e ∈ es, isEngine e = false := by simpa using List.length_eq_zero_iff.mp hc
    refine .inl ?_
    rw [quiet_run_exchange r.quiet (fun _ => hn) r.run, hnone, List.append_nil]
    rfl
  | succ n ih =>
    obtain ⟨k⟩ := exists_firstTurn r.quiet r.run (exists_engine_of_count hc.ge)
    rw [k.arrivals_eq] at hnone
    obtain ⟨hbefore, hafter⟩ := List.append_eq_nil_iff.mp hnone
    have hmet : exchange k.met = exchange s := by
      rw [k.exchange_met, hbefore, List.append_nil]
      rfl
    obtain ⟨u, hu⟩ := k.exists_turn r hp
    rcases silent_header_turn (k.inPhase hp) ((congrArg Exchange.rxq hmet).trans hq) hu with hleft | hleft
    · have hsame : exchange k.left = exchange s := hleft.trans hmet
      have hstatus : k.left.status = s.status := congrArg Exchange.status hsame
      have hend := ih (k.cleanRun r) (hsame ▸ hp) ((congrArg Exchange.rxq hsame).trans hq) hafter
        (by rw [k.count_engine] at hc; omega)
      rwa [hsame, hstatus] at hend
    · have hidle : k.left.status.busy = false := congrArg (fun x => x.status.busy) hleft
      refine .inr ?_
      rw [(k.cleanRun r).exchange_of_idle hidle, hafter, List.append_nil, ← k.met_status, ← hmet, ← hleft]
      rfl

/-- A run from DISCARDING_ECHO on which the echo `g` arrives and nothing else is still in flight, or has ended with
TIMEOUT_AWAITING_HEADER and nothing pending (R147, R156). -/
theorem silent_echo_run {g : List Byte} (r : CleanRun tm es s t) (hp : InPhase .discardingEcho [] (exchange s))
    (hq : s.rxq = []) (hg : s.echoRem.toNat = g.length) (hall : arrivals es = g)
    (hecho : g <+: arriving (beforeStepIn .discardingEcho (runTrace tm es s))) :
    (t.status.busy = true ∧ t.line = s.line) ∨
    exchange t = { exchange s with
      echoRem := 0, result := 0x02, status := statusOnComplete s.status, fsm := .idle, rxq := [] } := by
  rcases Nat.eq_zero_or_pos (es.filter isEngine).length with hc | hc
  · have hn : ∀ e ∈ es, isEngine e = false := by simpa using List.length_eq_zero_iff.mp hc
    have hwait := quiet_run_exchange r.quiet (fun _ => hn) r.run
    exact .inl ⟨(congrArg (fun x => x.status.busy) hwait).trans hp.busy, congrArg Exchange.line hwait⟩
  · obtain ⟨k⟩ := exists_firstTurn r.quiet r.run (exists_engine_of_count hc)
    rw [k.beforeStepIn_of_entry ((k.stepsIn_entry_iff hp).mpr rfl), k.arriving_wait] at hecho
    obtain ⟨early, hearly⟩ := hecho
    have hnothing : early ++ arrivals k.after = [] := by
      rw [k.arrivals_eq, ← hearly, List.append_assoc] at hall
      exact List.append_right_eq_self.mp hall
    obtain ⟨rfl, hafter⟩ := List.append_eq_nil_iff.mp hnothing
    obtain ⟨u, hu⟩ := k.exists_turn r hp
    obtain ⟨hleft, hlq⟩ := k.echo_left hp hq hg hearly.symm hu
    have hheader : InPhase .awaitingHeader [] (exchange k.left) := by
      rw [hleft]
      exact ⟨hp.busy, rfl, hp.rxbuf, hp.rxcnt⟩
    have hstatus : k.left.status = s.status := congrArg Exchange.status hleft
    rcases silent_header_run (k.cleanRun r) hheader hlq hafter with hend | hend
    · rw [hleft] at hend
      exact .inl ⟨(congrArg (fun x => x.status.busy) hend).trans hp.busy, congrArg Exchange.line hend⟩
    · refine .inr ?_
      rw [hend, hstatus, hleft]

end

end Sys2Proof.Machine

/-! PROOFS. The outcome of a TRANSACT on the reference line, from its start (spec/20_memory.md R70 to R72;
spec/41_transaction.md R140 to R158). -/

namespace Sys2Proof.Machine

/-! ### From the start -/

/-- What a TRANSACT start leaves, with its request encoded: the session as session_init left it, in SENDING (R140 to
R142). -/
structure SessionStarted (reply : Bool) (line : List Byte) (x : Exchange) : Prop where
  inPhase : InPhase .sending [] x
  status : x.status = ⟨true, false, false, reply⟩
  result : x.result = 0x00
  echoRem : x.echoRem = 0
  expLen : x.expLen = 0
  line : x.line = line
  txlen_le : x.txlen.toNat ≤ 16

/-- A TRANSACT start on a request that encodes, while BUSY = 0 (R140, R184). -/
theorem transact_started {tm : Timing} {want : Bool} {s t : State} (hb : s.status.busy = false)
    (hn : s.reqNparam.toNat ≤ 10) (hid : s.reqId ≠ 255) (h : exec (.ctrlTransact want) s = .next t) :
    SessionStarted (want && s.reqId != 254) s.line (exchange t) ∧ TransceiverInv tm t := by
  obtain rfl : guardedStart (transactCommand want) s = t := Host.Outcome.next.inj h
  rcases guardedStart_cases (transactCommand want) s with ⟨hb', _⟩ | ⟨_, e⟩
  · cases hb.symm.trans hb'
  rw [e]
  rcases transactCommand_cases want (acceptStart s) with ⟨r, herr, _⟩ | ⟨g, hg, e⟩
  · rcases encodeFrame_cases s.reqId s.reqCmd s.reqNparam s.reqParam with ⟨hgt, _⟩ | ⟨_, hid', _⟩ | ⟨_, _, hok⟩
    · omega
    · exact absurd hid' hid
    · cases hok.symm.trans herr
  · have htx : TxInv (transactCommand want (acceptStart s)) := by
      rw [e]
      exact txInv_of_frame hg rfl rfl
    refine ⟨?_, transactCommand_inv htx⟩
    obtain ⟨hlen, hmax⟩ := encodeFrame_length hg
    have hle : (BitVec.ofNat 8 g.length).toNat ≤ 16 := by
      rw [toNat_ofNat_encodeFrame_length hg]
      omega
    rw [e]
    exact ⟨⟨rfl, rfl, bufOfList_nil.symm, rfl⟩, rfl, rfl, rfl, rfl, rfl, hle⟩

/-- ECHO-PROMPT's first part: the run has a SENDING step, its first turn, and its write is whole (R70). -/
theorem CleanRun.sending_turn {tm : Timing} {es : List Event} {s t : State} (r : CleanRun tm es s t)
    (hp : InPhase .sending [] (exchange s)) (hecho : EchoPrompt (runTrace tm es s)) :
    ∃ k : FirstTurn tm es s t, stepsIn .sending k.entry = true ∧ engineStep tm (.ok 0) k.met = .next k.left := by
  obtain ⟨hsent, _⟩ := hecho
  obtain ⟨p, hfind, _⟩ := Option.map_eq_some_iff.mp hsent
  obtain ⟨k⟩ := exists_firstTurn r.quiet r.run
    (exists_engine_of_stepsIn r.run (List.mem_of_find?_eq_some hfind) (List.find?_some hfind))
  have hentry := (k.stepsIn_entry_iff hp).mpr rfl
  rw [k.find?_sending hentry] at hsent
  have ha : k.answer = .ok 0 := Event.engine.inj (Option.some.inj hsent)
  exact ⟨k, hentry, ha ▸ k.turn⟩

section
variable {tm : Timing} {es : List Event} {s t : State} {line : List Byte}

/-- The frame a session sends has TXLEN bytes (R144). -/
theorem length_txFrame (hl : s.txlen.toNat ≤ 16) : (txFrame s).length = s.txlen.toNat := by
  rw [txFrame, List.length_take, Vector.length_toList]
  omega

/-- The turn in SENDING, where a reply is expected: on to the echo of the whole frame (R144, R146). -/
theorem SessionStarted.sent_reply (h : SessionStarted true line (exchange s)) (k : FirstTurn tm es s t)
    (hturn : engineStep tm (.ok 0) k.met = .next k.left) :
    exchange k.left = { exchange s with
      line := line ++ txFrame s, echoRem := s.txlen, fsm := .discardingEcho, rxq := [] } ∧
    InPhase .discardingEcho [] (exchange k.left) ∧ k.left.rxq = [] ∧
    k.left.echoRem.toNat = (txFrame s).length := by
  have hline : k.met.line = line := (congrArg Exchange.line k.exchange_met).trans h.line
  have hleft := sending_turn_reply (k.inPhase h.inPhase) (k.met_txlen ▸ h.txlen_le)
    (congrArg Status.replyExp (k.met_status.trans h.status)) hturn
  rw [k.met_txFrame, k.met_txlen, hline, k.exchange_met] at hleft
  refine ⟨hleft, ?_, congrArg Exchange.rxq hleft, ?_⟩
  · rw [hleft]
    exact ⟨h.inPhase.busy, rfl, h.inPhase.rxbuf, h.inPhase.rxcnt⟩
  · rw [length_txFrame h.txlen_le]
    exact congrArg (fun x => x.echoRem.toNat) hleft

/-- With ECHO-PROMPT, REPLY(F) and NO-FAULT, a TRANSACT that expects a reply ends with OK and F (R72). -/
theorem reply_decides {f : List Byte} (hw : WholeFrame f) (r : CleanRun tm es s t)
    (h : SessionStarted true line (exchange s)) (hecho : EchoPrompt (runTrace tm es s))
    (hreply : ReplyArrives f (runTrace tm es s)) (hc : 4 ≤ (es.filter isEngine).length) :
    ∃ stale late, arrivals es = stale ++ (txFrame s ++ f ++ late) ∧ exchange t = { exchange s with
      status := ⟨false, true, false, true⟩, result := 0x00, fsm := .idle, rxbuf := bufOfList f,
      rxcnt := BitVec.ofNat 8 f.length, expLen := BitVec.ofNat 8 f.length, line := line ++ txFrame s, rxq := late } := by
  obtain ⟨k, hentry, hturn⟩ := r.sending_turn h.inPhase hecho
  obtain ⟨hleft, hp, hq, hg⟩ := h.sent_reply k hturn
  obtain ⟨_, hprefix⟩ := hecho
  obtain ⟨hwhole, hsilent⟩ := hreply
  rw [k.sentFrame_eq hentry, k.afterSending_eq hentry] at hprefix hwhole
  rw [k.afterSending_eq hentry] at hsilent
  obtain ⟨late, hlate, hend⟩ := echo_run hw (k.cleanRun r) hp hq hg (by rw [k.count_engine] at hc; omega) hprefix hwhole
    hsilent
  have hstatus : statusOnComplete k.left.status = ⟨false, true, false, true⟩ :=
    congrArg statusOnComplete ((congrArg Exchange.status hleft).trans h.status)
  refine ⟨arrivals k.before, late, by rw [k.arrivals_eq, hlate], ?_⟩
  rw [hend, hstatus, hleft, ← h.echoRem]

/-- With ECHO-PROMPT and NO-FAULT and no arrival after the echo, a TRANSACT that expects no reply ends with OK, its
echo pending (R72, R145). -/
theorem noReply_decides (r : CleanRun tm es s t) (h : SessionStarted false line (exchange s))
    (hecho : EchoPrompt (runTrace tm es s))
    (hnone : arriving (afterSending (runTrace tm es s)) = sentFrame (runTrace tm es s)) :
    exchange t = { exchange s with
      status := ⟨false, true, false, false⟩, fsm := .idle, line := line ++ txFrame s, rxq := txFrame s } := by
  obtain ⟨k, hentry, hturn⟩ := r.sending_turn h.inPhase hecho
  have hline : k.met.line = line := (congrArg Exchange.line k.exchange_met).trans h.line
  have hstatus : statusOnComplete k.met.status = ⟨false, true, false, false⟩ :=
    congrArg statusOnComplete (k.met_status.trans h.status)
  have hleft := sending_turn_noReply (k.inPhase h.inPhase) (k.met_txlen ▸ h.txlen_le)
    (congrArg Status.replyExp (k.met_status.trans h.status)) hturn
  have hidle : k.left.status.busy = false := congrArg (fun x => x.status.busy) hleft
  have hq : k.left.rxq = [] := congrArg Exchange.rxq hleft
  rw [k.sentFrame_eq hentry, k.afterSending_eq hentry, k.arriving_rest] at hnone
  rw [(k.cleanRun r).exchange_of_idle hidle, hq, hnone, hleft, k.met_txFrame, hline, hstatus, k.exchange_met, ← h.result]
  rfl

/-- With ECHO-PROMPT and NO-FAULT and no arrival after the echo, a TRANSACT that expects a reply is in flight, or has
ended with TIMEOUT_AWAITING_HEADER and nothing pending (R72, R156). -/
theorem silence_decides (r : CleanRun tm es s t) (h : SessionStarted true line (exchange s))
    (hecho : EchoPrompt (runTrace tm es s))
    (hnone : arriving (afterSending (runTrace tm es s)) = sentFrame (runTrace tm es s)) :
    (t.status.busy = true ∧ t.line = line ++ txFrame s) ∨
    exchange t = { exchange s with
      status := ⟨false, true, false, true⟩, result := 0x02, fsm := .idle, line := line ++ txFrame s, rxq := [] } := by
  obtain ⟨k, hentry, hturn⟩ := r.sending_turn h.inPhase hecho
  obtain ⟨hleft, hp, hq, hg⟩ := h.sent_reply k hturn
  obtain ⟨_, hprefix⟩ := hecho
  rw [k.sentFrame_eq hentry, k.afterSending_eq hentry] at hprefix hnone
  rw [k.arriving_rest] at hnone
  rcases silent_echo_run (k.cleanRun r) hp hq hg hnone hprefix with ⟨hb, hl⟩ | hend
  · exact .inl ⟨hb, hl.trans (congrArg Exchange.line hleft)⟩
  · have hstatus : statusOnComplete k.left.status = ⟨false, true, false, true⟩ :=
      congrArg statusOnComplete ((congrArg Exchange.status hleft).trans h.status)
    refine .inr ?_
    rw [hend, hstatus, hleft, ← h.echoRem]

end

/-- Settles O43: the start leads to a session in SENDING, and each form of the reference line decides its run. -/
theorem referenceLineDecidesTheOutcome : Obligations.ReferenceLineDecidesTheOutcome := by
  intro tm s t want es hb hn hid hstart hquiet
  obtain ⟨hsession, hinv⟩ := transact_started (tm := tm) hb hn hid hstart
  obtain ⟨v, hv⟩ := performAll_runs hinv hquiet
  have hnoRx : t.rxbuf = zeroBuf := hsession.inPhase.rxbuf.trans bufOfList_nil
  have hnoCnt : t.rxcnt = 0 := BitVec.eq_of_toNat_eq hsession.inPhase.rxcnt
  refine ⟨fun id cmd n p f hwant hid' hf hline hc => ?reply, fun hno hline => ?noReply, fun hwant hid' hline => ?silence⟩
  case reply =>
    obtain ⟨hecho, hreply, hnf⟩ := hline
    rw [hwant, show (true && s.reqId != 254) = true by simpa using hid'] at hsession
    obtain ⟨stale, late, harr, hx⟩ :=
      reply_decides (wholeFrame_of_encodeFrame hf) ⟨hquiet, hv, hnf⟩ hsession hecho hreply hc
    have hlen := toNat_ofNat_encodeFrame_length hf
    refine ⟨v, hv, congrArg Exchange.status hx, congrArg Exchange.result hx, congrArg Exchange.fsm hx,
      congrArg Exchange.rxbuf hx, (congrArg (fun x => x.rxcnt.toNat) hx).trans hlen,
      (congrArg (fun x => x.expLen.toNat) hx).trans hlen, (congrArg Exchange.echoRem hx).trans hsession.echoRem,
      congrArg Exchange.line hx, fun hall => ?_⟩
    have hlate : late = [] := by
      have hcount := congrArg List.length (harr.symm.trans hall)
      simp only [List.length_append] at hcount
      exact List.length_eq_zero_iff.mp (by omega)
    exact (congrArg Exchange.rxq hx).trans hlate
  case noReply =>
    obtain ⟨hecho, hnf, hnone⟩ := hline
    rw [show (want && s.reqId != 254) = false by rcases hno with h | h <;> simp [h]] at hsession
    have hx := noReply_decides ⟨hquiet, hv, hnf⟩ hsession hecho hnone
    exact ⟨v, hv, congrArg Exchange.status hx, (congrArg Exchange.result hx).trans hsession.result,
      congrArg Exchange.fsm hx, (congrArg Exchange.rxbuf hx).trans hnoRx, (congrArg Exchange.rxcnt hx).trans hnoCnt,
      (congrArg Exchange.expLen hx).trans hsession.expLen, (congrArg Exchange.echoRem hx).trans hsession.echoRem,
      congrArg Exchange.line hx, congrArg Exchange.rxq hx⟩
  case silence =>
    obtain ⟨hecho, hnf, hnone⟩ := hline
    rw [hwant, show (true && s.reqId != 254) = true by simpa using hid'] at hsession
    rcases silence_decides ⟨hquiet, hv, hnf⟩ hsession hecho hnone with ⟨hbusy, hsent⟩ | hx
    · exact ⟨v, hv, hsent, fun hidle => nomatch hbusy.symm.trans hidle⟩
    · exact ⟨v, hv, congrArg Exchange.line hx, fun _ => ⟨congrArg Exchange.status hx, congrArg Exchange.result hx,
        congrArg Exchange.fsm hx, (congrArg Exchange.rxbuf hx).trans hnoRx, (congrArg Exchange.rxcnt hx).trans hnoCnt,
        (congrArg Exchange.expLen hx).trans hsession.expLen, (congrArg Exchange.echoRem hx).trans hsession.echoRem,
        congrArg Exchange.rxq hx⟩⟩

end Sys2Proof.Machine

/-! PROOFS. The decoder, by the three fields of the word (spec/30_encoding.md R81, R92, R93): a write at offset 0x00 is
the CTRL row of its OP, any other write is REG_WRITE, a read is REG_READ. -/

namespace Sys2Proof.Machine

open Sys2Proof.Laws

/-! ### Which rows take a word -/

/-- A mask acts on each field of a word by itself. -/
theorem accessWord_and (dir dir' : Bool) (off off' : Offset) (data data' : Byte) :
    accessWord dir off data &&& accessWord dir' off' data' =
      accessWord (dir && dir') (off &&& off') (data &&& data') := by
  rw [accessWord, accessWord, accessWord, BitVec.and_append, BitVec.and_append, ← BitVec.ofBool_and_ofBool]

/-- A word determines its DIR and its OFF. -/
theorem accessWord_inj {dir dir' : Bool} {off off' : Offset} {data data' : Byte}
    (h : accessWord dir off data = accessWord dir' off' data') : dir = dir' ∧ off = off' :=
  ⟨by rw [← accessWord_dir dir off data, h, accessWord_dir],
    by rw [← wordOff_accessWord dir off data, h, wordOff_accessWord]⟩

/-- The mask of the CTRL rows keeps DIR, OFF and OP, and their matches have DIR = 1 and OFF = 0x00 (R81, R93). -/
theorem ctrl_row_shape {r : Row} (hr : r ∈ opcodeTable.take 4) :
    r.mask = accessWord true 0x3F 0x03 ∧ ∃ op, r.pattern = accessWord true 0x00 op := by
  simp only [opcodeTable, List.take_succ_cons, List.take_zero, List.mem_cons, List.not_mem_nil, or_false] at hr
  rcases hr with rfl | rfl | rfl | rfl
  · exact ⟨rfl, 0, rfl⟩
  · exact ⟨rfl, 1, rfl⟩
  · exact ⟨rfl, 2, rfl⟩
  · exact ⟨rfl, 3, rfl⟩

/-- The CTRL rows take only writes at offset 0x00 (R93, R181). -/
theorem ctrl_row_takes {r : Row} (hr : r ∈ opcodeTable.take 4) {dir : Bool} {off : Offset} {data : Byte}
    (ht : rowTakes r (accessWord dir off data) = true) : dir = true ∧ off = 0x00 := by
  obtain ⟨hmask, op, hmatch⟩ := ctrl_row_shape hr
  rw [rowTakes, beq_iff_eq, hmask, hmatch, accessWord_and] at ht
  obtain ⟨hdir, hoff⟩ := accessWord_inj ht
  exact ⟨by simpa using hdir, by rwa [show (0x3F : Offset) = BitVec.allOnes 6 from rfl, BitVec.and_allOnes] at hoff⟩

/-! ### What the decoder answers -/

/-- A word that is no write at offset 0x00 is left to the two rows that look at DIR alone (R93). -/
theorem decode_of_not_ctrl {dir : Bool} {off : Offset} (data : Byte) (h : ¬ (dir = true ∧ off = 0x00)) :
    decode (accessWord dir off data) = .ok (if dir then .regWrite off data else .regRead off) := by
  have hctrl : (opcodeTable.take 4).find? (rowTakes · (accessWord dir off data)) = none :=
    List.find?_eq_none.mpr fun _ hr ht => h (ctrl_row_takes hr ht)
  have hrest : opcodeTable.find? (rowTakes · (accessWord dir off data)) =
      (opcodeTable.drop 4).find? (rowTakes · (accessWord dir off data)) := by
    conv_lhs => rw [← List.take_append_drop 4 opcodeTable, List.find?_append, hctrl, Option.none_or]
  rw [decode, hrest]
  have hmask : accessWord dir off data &&& 0x4000#15 = if dir then 0x4000#15 else 0#15 := accessWord_mask dir off data
  cases dir <;> simp [opcodeTable, rowTakes, hmask, wordOff_accessWord, wordData_accessWord]

/-- A write anywhere but at offset 0x00 is a REG_WRITE (R93, R181). -/
theorem decode_write_access {off : Offset} (data : Byte) (h : off ≠ 0x00) :
    decode (accessWord true off data) = .ok (.regWrite off data) :=
  decode_of_not_ctrl data fun hc => h hc.2

/-- A read is a REG_READ, whatever its DATA field (R92, R93, R180). -/
theorem decode_read_access (off : Offset) (data : Byte) : decode (accessWord false off data) = .ok (.regRead off) :=
  decode_of_not_ctrl data fun hc => Bool.false_ne_true hc.1

/-- Every word is a CTRL write, another write, or a read (R93). -/
theorem access_word_cases (w : AccessWord) :
    (∃ v, w = accessWord true 0x00 v) ∨ (∃ off v, off ≠ 0x00 ∧ w = accessWord true off v) ∨
    ∃ off v, w = accessWord false off v := by
  have hw := accessWord_parts w
  cases hdir : w.getLsbD 14 <;> rw [hdir] at hw
  · exact .inr (.inr ⟨_, _, hw.symm⟩)
  · by_cases hoff : wordOff w = 0x00
    · exact .inl ⟨_, by rw [← hoff, hw]⟩
    · exact .inr (.inl ⟨_, _, hoff, hw.symm⟩)

/-- An answer of the decoder comes from a row, the first that takes the word (R93). -/
theorem first_row_of_decode {w : AccessWord} {i : Instr} (h : decode w = .ok i) :
    ∃ (n : Nat) (r : Row), opcodeTable[n]? = some r ∧ rowTakes r w = true ∧
      (∀ m r', m < n → opcodeTable[m]? = some r' → rowTakes r' w = false) ∧ i = r.instr w := by
  unfold decode at h
  split at h
  next r hfind =>
    obtain ⟨htakes, n, hn, hrow, hearlier⟩ := List.find?_eq_some_iff_getElem.mp hfind
    refine ⟨n, r, List.getElem?_eq_some_iff.mpr ⟨hn, hrow⟩, htakes, fun m r' hm hr' => ?_, (Except.ok.inj h).symm⟩
    obtain ⟨_, rfl⟩ := List.getElem?_eq_some_iff.mp hr'
    simpa using hearlier m hm
  next => cases h

/-! ### The instruction of a CTRL byte -/

/-- A CTRL byte's instruction has an encoding (R181). -/
theorem ctrlInstr_wellFormed (v : Byte) : (ctrlInstr v).wellFormed = true := by
  unfold ctrlInstr
  split <;> rfl

/-- Only OP, and W where OP is 3, select the instruction of a CTRL byte (R81, R92). -/
theorem ctrlInstr_congr {v v' : Byte} (hop : v.extractLsb' 0 2 = v'.extractLsb' 0 2)
    (hwant : v.extractLsb' 0 2 = 3 → v.getLsbD 2 = v'.getLsbD 2) : ctrlInstr v = ctrlInstr v' := by
  have hops : ∀ op : BitVec 2, op = 0 ∨ op = 1 ∨ op = 2 ∨ op = 3 := by decide
  unfold ctrlInstr
  rw [← hop]
  rcases hops (v.extractLsb' 0 2) with h | h | h | h
  · rw [h]; rfl
  · rw [h]; rfl
  · rw [h]; rfl
  · rw [hwant h]

/-! ### The obligations about the decoder -/

/-- Settles O1, constructor by constructor: the canonical word's fields are the instruction's operands. -/
theorem encodedInstructionDecodesBack : Obligations.EncodedInstructionDecodesBack := by
  intro i hwf
  cases i with
  | ctrlNop => exact decode_ctrl_access (ctrlByte 0 false)
  | ctrlEncode => exact decode_ctrl_access (ctrlByte 1 false)
  | ctrlDecode => exact decode_ctrl_access (ctrlByte 2 false)
  | ctrlTransact want => cases want <;> exact decode_ctrl_access (ctrlByte 3 _)
  | regWrite off data => exact decode_write_access data (by simpa [Instr.wellFormed] using hwf)
  | regRead off => exact decode_read_access off 0

/-- Settles O2, by the three kinds of word. -/
theorem everyAccessWordIsAnInstruction : Obligations.EveryAccessWordIsAnInstruction := by
  intro w
  rcases access_word_cases w with ⟨v, rfl⟩ | ⟨off, v, hoff, rfl⟩ | ⟨off, v, rfl⟩
  · exact ⟨_, decode_ctrl_access v, ctrlInstr_wellFormed v⟩
  · exact ⟨_, decode_write_access v hoff, by simpa [Instr.wellFormed] using hoff⟩
  · exact ⟨_, decode_read_access off v, rfl⟩

/-- Settles O3: the decoder answers every word (O2), and its answer comes from the first row that takes it. -/
theorem decoderTakesFirstMatchingRow : Obligations.DecoderTakesFirstMatchingRow := by
  intro w
  obtain ⟨i, hd, _⟩ := everyAccessWordIsAnInstruction w
  obtain ⟨n, r, hrow, htakes, hearlier, rfl⟩ := first_row_of_decode hd
  exact ⟨n, r, hrow, beq_iff_eq.mp htakes, fun m r' hm hr' => beq_eq_false_iff_ne.mp (hearlier m r' hm hr'), hd⟩

/-- Settles O4: a CTRL write decodes by its OP and, for OP 3, its W; a read decodes by its offset. -/
theorem ignoredBitsDoNotChangeInstruction : Obligations.IgnoredBitsDoNotChangeInstruction := by
  refine ⟨fun v v' hop hwant => ?_, fun off d d' => ?_⟩
  · rw [decode_ctrl_access, decode_ctrl_access, ctrlInstr_congr hop hwant]
  · rw [decode_read_access, decode_read_access]

/-- Settles O5: each word by its fields, the CTRL rows by their byte. -/
theorem writtenOutWordsDecode : Obligations.WrittenOutWordsDecode :=
  ⟨decode_ctrl_access 0x00, decode_ctrl_access 0x01, decode_ctrl_access 0x02, decode_ctrl_access 0x03,
    decode_ctrl_access 0x07, decode_write_access (off := 0x04) 0x01 (by decide),
    decode_write_access (off := 0x36) 0xF2 (by decide), decode_read_access 0x01 0x00, decode_read_access 0x2F 0x00⟩

end Sys2Proof.Machine

/-! PROOFS. Host programs that write registers, and LOADREQ (spec/30_encoding.md R94, R95). -/

namespace Sys2Proof.Machine

/-- A host's write anywhere but at CTRL is one register write (R57, R181). -/
theorem hostTurn_wr {α : Type} {off : Offset} (v : Byte) (next : HostProgram α) (s : State) (h : off ≠ 0x00) :
    hostTurn (.wr off v next) s = .next (next, writeReg v s (regAt off)) := by
  have hstep : hostStep (accessWord true off v) s = .next (writeReg v s (regAt off)) :=
    hostStep_of_decode (decode_write_access v h) s
  simp only [hostTurn, nextAccess, hstep, afterAccess]

/-- A host program that begins with such a write goes on after it (R57). -/
theorem hostTurns_wr {α : Type} (k : Nat) {off : Offset} (v : Byte) (next : HostProgram α) (s : State)
    (h : off ≠ 0x00) :
    hostTurns (k + 1) (.wr off v next) s = hostTurns k next (writeReg v s (regAt off)) := by
  rw [hostTurns, hostTurn_wr v next s h]

/-- A host program's write at the offset of a request parameter (R29, R95). -/
theorem hostTurns_wr_reqParam {α : Type} (k : Nat) (i : Fin 10) (v : Byte) (next : HostProgram α) (s : State) :
    hostTurns (k + 1) (.wr (BitVec.ofNat 6 (0x10 + i.val)) v next) s =
      hostTurns k next { s with reqParam := s.reqParam.set i v } := by
  have hreg : regAt (offsetOf (.reqParam i)) = .reqParam i := regAt_offsetOf _
  have hoff : offsetOf (.reqParam i) ≠ 0x00 := fun h0 => by
    rw [h0] at hreg
    cases hreg
  change hostTurns (k + 1) (.wr (offsetOf (.reqParam i)) v next) s = _
  rw [hostTurns_wr k v next s hoff, hreg, writeReg]

/-- Bytes stored into the request parameters, at `j`, `j + 1`, …; every other entry stays (R29, R95). -/
def storeParams (j : Nat) (bytes : List Byte) (p : Vector Byte 10) : Vector Byte 10 :=
  .ofFn fun i => if i.val < j then p[i] else bytes.getD (i.val - j) p[i]

/-- An entry of the stored parameters. -/
@[simp] theorem getElem_storeParams (j : Nat) (bytes : List Byte) (p : Vector Byte 10) (i : Nat) (h : i < 10) :
    (storeParams j bytes p)[i] = if i < j then p[i] else bytes.getD (i - j) p[i] := by
  simp [storeParams]

/-- Storing no bytes changes nothing. -/
theorem storeParams_nil (j : Nat) (p : Vector Byte 10) : storeParams j [] p = p :=
  Vector.ext fun i hi => by simp

/-- The first byte goes to entry `j`, the others to the entries after it. -/
theorem storeParams_cons {j : Nat} (b : Byte) (bs : List Byte) (p : Vector Byte 10) (hj : j < 10) :
    storeParams j (b :: bs) p = storeParams (j + 1) bs (p.set j b) := by
  apply Vector.ext
  intro i hi
  rw [getElem_storeParams, getElem_storeParams, Vector.getElem_set]
  rcases Nat.lt_trichotomy i j with hlt | rfl | hgt
  · simp [hlt, hlt.ne', Nat.lt_succ_of_lt hlt]
  · simp
  · obtain ⟨d, rfl⟩ := Nat.exists_eq_add_of_lt hgt
    simp [show ¬ j + d + 1 < j by omega, show ¬ j = j + d + 1 by omega, show j + d + 1 - j = d + 1 by omega,
      show j + d + 1 - (j + 1) = d by omega]

/-- Consecutive writes from parameter `j` on store the bytes there and change nothing else (R95). -/
theorem hostTurns_writeFrom_reqParam {α : Type} (next : HostProgram α) (bytes : List Byte) (j : Nat) (s : State)
    (h : j + bytes.length ≤ 10) :
    hostTurns bytes.length (writeFrom (0x10 + j) bytes next) s =
      .next (next, { s with reqParam := storeParams j bytes s.reqParam }) := by
  induction bytes generalizing j s with
  | nil => rw [storeParams_nil]; rfl
  | cons b bs ih =>
    rw [List.length_cons] at h
    have hj : j < 10 := by omega
    rw [storeParams_cons b bs _ hj]
    exact (hostTurns_wr_reqParam bs.length ⟨j, hj⟩ b _ s).trans (ih (j + 1) _ (by omega))

/-- Settles O59: three writes of single registers, then the parameters from the first one on. -/
theorem loadReqLoadsTheRequest : Obligations.LoadReqLoadsTheRequest := by
  intro s id cmd params r hn
  refine ⟨storeParams 0 params s.reqParam, ?_, fun i => by simp⟩
  rw [show 3 + params.length = params.length + 1 + 1 + 1 by omega, loadReq, hostTurns_wr _ _ _ _ (by decide),
    hostTurns_wr _ _ _ _ (by decide), hostTurns_wr _ _ _ _ (by decide)]
  exact hostTurns_writeFrom_reqParam (.done r) params 0 _ (by omega)

end Sys2Proof.Machine

/-! PROOFS. The checksum and the length predicates (spec/40_frame_codec.md R110, R112). -/

namespace Sys2Proof.Machine

/-! ### The byte sum -/

@[simp] theorem sum8_nil : sum8 [] = 0 := rfl

@[simp] theorem sum8_cons (x : Byte) (s : List Byte) : sum8 (x :: s) = x + sum8 s := by
  simp [sum8, BitVec.ofNat_add]

@[simp] theorem sum8_append (s t : List Byte) : sum8 (s ++ t) = sum8 s + sum8 t := by
  simp [sum8, BitVec.ofNat_add]

/-- Truncating after each addition gives the sum truncated once (R110). -/
theorem foldl_add_eq_sum8 (s : List Byte) (a : Byte) : s.foldl (· + ·) a = a + sum8 s := by
  induction s generalizing a with
  | nil => simp
  | cons x s ih => rw [List.foldl_cons, ih, sum8_cons, BitVec.add_assoc]

/-- The byte sum follows the change of one entry. -/
theorem sum8_set {s : List Byte} {i : Nat} (hi : i < s.length) (v : Byte) :
    sum8 (s.set i v) + s[i] = sum8 s + v := by
  have hold : sum8 s = sum8 (s.take i) + (s[i] + sum8 (s.drop (i + 1))) := by
    rw [← sum8_cons, ← List.drop_eq_getElem_cons hi, ← sum8_append, List.take_append_drop]
  rw [List.set_eq_take_append_cons_drop, if_pos hi, sum8_append, sum8_cons, hold]
  ac_rfl

/-! ### The checksum -/

/-- The checksum is 255 minus the exact sum mod 256 (R110). -/
theorem toNat_cks (s : List Byte) : (cks s).toNat = 255 - (s.map BitVec.toNat).sum % 256 := by
  simp [cks, sum8]

/-- No change of a single checked byte goes unseen (R110). -/
theorem cks_set_ne {s : List Byte} {i : Nat} (hi : i < s.length) {v : Byte} (hv : v ≠ s[i]) :
    cks (s.set i v) ≠ cks s := by
  intro h
  have hsum : sum8 (s.set i v) = sum8 s := BitVec.not_inj.mp h
  have hset := sum8_set hi v
  rw [hsum, BitVec.add_right_inj] at hset
  exact hv hset.symm

/-- Settles O47: the exact value, then the two corner cases read off it. -/
theorem checksumIsTheComplementedSum : Obligations.ChecksumIsTheComplementedSum := by
  intro s
  have hval := toNat_cks s
  refine ⟨hval, ?_, fun h0 => ?_, fun h255 => ?_⟩
  · rw [foldl_add_eq_sum8, zero_add, cks]
  · exact BitVec.eq_of_toNat_eq (by rw [hval, h0]; rfl)
  · exact BitVec.eq_of_toNat_eq (by rw [hval, h255]; rfl)

/-- Settles O48: the limits are MAX_FRAME's and 3, and no byte is past both. -/
theorem lengthPredicatesAreAsStated : Obligations.LengthPredicatesAreAsStated := by
  intro l
  rw [implausible_iff, oversize_iff]
  exact ⟨.rfl, by omega, .rfl, by omega⟩

end Sys2Proof.Machine

/-! PROOFS. The frame of EncodeFrame byte for byte, and what a buffer that begins with it decodes to
(spec/40_frame_codec.md R113 to R115). -/

namespace Sys2Proof.Machine

/-- EncodeFrame refuses more than 10 parameters (R113). -/
theorem encodeFrame_of_params_gt {id cmd n : Byte} {p : Vector Byte 10} (hn : 10 < n.toNat) :
    encodeFrame id cmd n p = .error ⟨.invalidRequest, 1⟩ :=
  if_pos hn

/-- EncodeFrame refuses id 255 where the parameters are not too many (R113). -/
theorem encodeFrame_of_id_eq {id cmd n : Byte} {p : Vector Byte 10} (hn : n.toNat ≤ 10) (hid : id = 255) :
    encodeFrame id cmd n p = .error ⟨.invalidRequest, 2⟩ :=
  (if_neg (Nat.not_lt.mpr hn)).trans (if_pos hid)

/-- EncodeFrame builds a frame for every other request (R113). -/
theorem exists_encodeFrame_ok {id cmd n : Byte} {p : Vector Byte 10} (hn : n.toNat ≤ 10) (hid : id ≠ 255) :
    ∃ f, encodeFrame id cmd n p = .ok f :=
  ⟨_, (if_neg (Nat.not_lt.mpr hn)).trans (if_neg hid)⟩

/-- The length byte of a frame with at most 10 parameters is not narrowed (R84). -/
theorem toNat_lengthByte {n : Byte} (hn : n.toNat ≤ 10) : (n + 3).toNat = n.toNat + 3 := by
  rw [BitVec.toNat_add]
  exact Nat.mod_eq_of_lt (show n.toNat + 3 < 256 by omega)

section
variable {id cmd n : Byte} {p : Vector Byte 10} {f : List Byte}

/-- The frame written out: header, id, length, command, the parameters, the checksum (R83 to R86, R113). -/
theorem encodeFrame_bytes (h : encodeFrame id cmd n p = .ok f) :
    f = 0x55 :: 0x55 :: id :: (n + 3) :: cmd :: (p.toList.take n.toNat ++ [cks (frameBody id cmd n p)]) := by
  have hlen : BitVec.ofNat 8 (n.toNat + 3) = n + 3 := by simp [BitVec.ofNat_add]
  rw [(encodeFrame_ok h).2, ← hlen]
  rfl

/-- The parameters follow the command (R85). -/
theorem encodeFrame_params (h : encodeFrame id cmd n p = .ok f) : (f.drop 5).take n.toNat = p.toList.take n.toNat := by
  have hn := (encodeFrame_ok h).1
  rw [encodeFrame_bytes h]
  simp [hn]

/-- A parameter's place in the frame (R85). -/
theorem encodeFrame_param (h : encodeFrame id cmd n p = .ok f) (i : Fin 10) (hi : i.val < n.toNat) :
    f[5 + i.val]? = some p[i] := by
  have hget := congrArg (·[i.val]?) (encodeFrame_params h)
  simpa [List.getElem?_take, hi] using hget

/-- The checksum is taken over the bytes from the id to the last parameter (R86). -/
theorem encodeFrame_checked (h : encodeFrame id cmd n p = .ok f) :
    (f.take (5 + n.toNat)).drop 2 = frameBody id cmd n p := by
  obtain ⟨hn, rfl⟩ := encodeFrame_ok h
  have hbody := length_frameBody (id := id) (cmd := cmd) (p := p) hn
  rw [List.drop_take, show 5 + n.toNat - 2 = (frameBody id cmd n p).length by omega]
  simp

/-- The checksum is the frame's last byte (R86). -/
theorem encodeFrame_checksum (h : encodeFrame id cmd n p = .ok f) :
    f[5 + n.toNat]? = some (cks (frameBody id cmd n p)) := by
  obtain ⟨hn, rfl⟩ := encodeFrame_ok h
  have hbody := length_frameBody (id := id) (cmd := cmd) (p := p) hn
  rw [show 5 + n.toNat = ([Config.hdr0, Config.hdr1] ++ frameBody id cmd n p).length by simp [hbody]; omega]
  exact List.getElem?_concat_length

/-- The body's bytes add up to the id, the length, the command and the parameters (R110, R113). -/
theorem sum_frameBody (hn : n.toNat ≤ 10) :
    ((frameBody id cmd n p).map BitVec.toNat).sum =
      id.toNat + (3 + n.toNat) + cmd.toNat + ((p.toList.take n.toNat).map BitVec.toNat).sum := by
  simp [frameBody, Nat.mod_eq_of_lt (show n.toNat + 3 < 256 by omega)]
  omega

end

/-- Settles O49: the two refusals, and the frame written out. -/
theorem encodeFrameBuildsTheWireFormat : Obligations.EncodeFrameBuildsTheWireFormat := by
  intro id cmd n p
  refine ⟨encodeFrame_of_params_gt, encodeFrame_of_id_eq, fun hn hid => ?_⟩
  obtain ⟨f, hf⟩ := exists_encodeFrame_ok (cmd := cmd) (p := p) hn hid
  have hbytes := encodeFrame_bytes hf
  refine ⟨f, hf, (encodeFrame_length hf).1, ?_, ?_, ?_, ?_, ?_, encodeFrame_param hf,
    by rw [encodeFrame_checked hf, encodeFrame_checksum hf]⟩ <;> rw [hbytes] <;> rfl

/-- A buffer whose first entries are a list's begins with the list. -/
theorem take_toList_of_byteAt {b : Vector Byte 16} {f : List Byte} (hlen : f.length ≤ 16)
    (h : ∀ i, i < f.length → f[i]? = some (byteAt b i)) : b.toList.take f.length = f := by
  apply List.ext_getElem
  · simp [hlen]
  · intro i _ hi
    have hget := h i hi
    rw [List.getElem?_eq_getElem hi, byteAt_eq b i (by omega), Option.some_inj] at hget
    simp [hget]

/-- The parameters that the frame view reads off a buffer that begins with an encoded frame (R115). -/
theorem frameView_params_of_encodeFrame {id cmd n : Byte} {p : Vector Byte 10} {f : List Byte} {b : Vector Byte 16}
    (hf : encodeFrame id cmd n p = .ok f) (hb : b.toList.take f.length = f) (h3 : (byteAt b 3).toNat = n.toNat + 3) :
    (frameView b).params = p.toList.take n.toNat := by
  have hlen := (encodeFrame_length hf).1
  calc (b.toList.drop 5).take ((byteAt b 3).toNat - 3)
      = (b.toList.drop 5).take n.toNat := by rw [h3, Nat.add_sub_cancel]
    _ = ((b.toList.take f.length).drop 5).take n.toNat := by
        rw [List.drop_take, List.take_take, Nat.min_eq_left (by omega)]
    _ = (f.drop 5).take n.toNat := by rw [hb]
    _ = p.toList.take n.toNat := encodeFrame_params hf

/-- Settles O51: the buffer holds the frame's bytes, so DecodeFrame accepts it and the view reads the request. -/
theorem encodedFrameDecodesBack : Obligations.EncodedFrameDecodesBack := by
  intro id cmd n p f b c hf hbytes hc hc16
  have hb := take_toList_of_byteAt (hc.trans hc16) hbytes
  obtain ⟨hlen, hn⟩ := encodeFrame_length hf
  have hat : ∀ i, i < n.toNat + 6 → byteAt b i = f.getD i 0 := fun i hi => byteAt_of_take hb (by omega)
  rw [encodeFrame_bytes hf] at hat
  have h3 : byteAt b 3 = n + 3 := hat 3 (by omega)
  exact ⟨decodeFrame_encodeFrame hf hb hc, hat 2 (by omega), hat 4 (by omega), h3,
    frameView_params_of_encodeFrame hf hb (h3 ▸ toNat_lengthByte hn)⟩

end Sys2Proof.Machine

/-! PROOFS. DecodeFrame check by check, and what a change of one byte of a valid frame leads to
(spec/40_frame_codec.md R110 to R114, section 4). -/

namespace Sys2Proof.Machine

/-! ### One equation per check, in the order of R114 -/

/-- HDR_OK is both header bytes 0x55 (R111). -/
theorem hdrOk_iff (b0 b1 : Byte) : hdrOk b0 b1 = true ↔ b0 = 0x55 ∧ b1 = 0x55 := by
  simp [hdrOk, Config.hdr0, Config.hdr1]

section
variable {b : Vector Byte 16} {c : Nat}

theorem decodeFrame_of_lt_two (hc : c < 2) : decodeFrame b c = .error ⟨.malformedResponse, 2⟩ :=
  if_pos hc

theorem decodeFrame_of_not_hdrOk (hc : 2 ≤ c) (hh : ¬ hdrOk (byteAt b 0) (byteAt b 1) = true) :
    decodeFrame b c = .error ⟨.malformedResponse, 1⟩ := by
  simp [decodeFrame, hc.not_gt, hh]

theorem decodeFrame_of_lt_four (hc : 2 ≤ c) (hh : hdrOk (byteAt b 0) (byteAt b 1) = true) (hc4 : c < 4) :
    decodeFrame b c = .error ⟨.malformedResponse, 2⟩ := by
  simp [decodeFrame, hc.not_gt, hh, hc4]

theorem decodeFrame_of_implausible (hc : 4 ≤ c) (hh : hdrOk (byteAt b 0) (byteAt b 1) = true)
    (hl : (byteAt b 3).toNat < 3) : decodeFrame b c = .error ⟨.malformedResponse, 3⟩ := by
  have hc2 : ¬ c < 2 := by omega
  have hi := (implausible_iff _).mpr hl
  simp [decodeFrame, hc2, hh, hc.not_gt, hi]

theorem decodeFrame_of_oversize (hc : 4 ≤ c) (hh : hdrOk (byteAt b 0) (byteAt b 1) = true)
    (hl : 13 < (byteAt b 3).toNat) : decodeFrame b c = .error ⟨.oversizeResponse, 0⟩ := by
  have hc2 : ¬ c < 2 := by omega
  have hi : ¬ implausible (byteAt b 3) = true := by rw [implausible_iff]; omega
  have ho := (oversize_iff _).mpr hl
  simp [decodeFrame, hc2, hh, hc.not_gt, hi, ho]

theorem decodeFrame_of_incomplete (hc : 4 ≤ c) (hh : hdrOk (byteAt b 0) (byteAt b 1) = true)
    (hl : 3 ≤ (byteAt b 3).toNat) (hu : (byteAt b 3).toNat ≤ 13) (hlt : c < 3 + (byteAt b 3).toNat) :
    decodeFrame b c = .error ⟨.malformedResponse, 4⟩ := by
  have hc2 : ¬ c < 2 := by omega
  have hi : ¬ implausible (byteAt b 3) = true := by rw [implausible_iff]; omega
  have ho : ¬ oversize (byteAt b 3) = true := by rw [oversize_iff]; omega
  simp [decodeFrame, hc2, hh, hc.not_gt, hi, ho, hlt]

/-- A frame whose checksum is not that of its bytes (R114). -/
theorem decodeFrame_of_cks_ne (hh : hdrOk (byteAt b 0) (byteAt b 1) = true) (hl : 3 ≤ (byteAt b 3).toNat)
    (hu : 3 + (byteAt b 3).toNat ≤ 16) (hle : 3 + (byteAt b 3).toNat ≤ c)
    (hck : cks ((b.toList.drop 2).take (byteAt b 3).toNat) ≠ byteAt b (2 + (byteAt b 3).toNat)) :
    decodeFrame b c = .error ⟨.checksumMismatch, 0⟩ := by
  rw [decodeFrame_whole hh hl hu hle, if_neg hck]

end

/-! ### Only the supplied bytes are read -/

/-- Buffers that agree below `c` agree on a stretch of bytes that ends there. -/
theorem take_drop_congr {b b' : Vector Byte 16} {c : Nat} (h : ∀ i, i < c → byteAt b i = byteAt b' i) {k l : Nat}
    (hl : k + l ≤ c) : (b.toList.drop k).take l = (b'.toList.drop k).take l := by
  apply List.ext_getElem
  · simp
  · intro i hi _
    have hi' : i < l ∧ i < 16 - k := by simpa using hi
    have hat := h (k + i) (by omega)
    rw [byteAt_eq _ _ (by omega), byteAt_eq _ _ (by omega)] at hat
    simpa using hat

/-- DecodeFrame reads no byte at or beyond `c`: each check reads only bytes that the checks before it know to be
supplied (R114). -/
theorem decodeFrame_congr {b b' : Vector Byte 16} {c : Nat} (h : ∀ i, i < c → byteAt b i = byteAt b' i) :
    decodeFrame b c = decodeFrame b' c := by
  by_cases hc2 : c < 2
  · rw [decodeFrame_of_lt_two hc2, decodeFrame_of_lt_two hc2]
  have h0 := h 0 (by omega)
  have h1 := h 1 (by omega)
  by_cases hh : hdrOk (byteAt b 0) (byteAt b 1) = true
  swap
  · rw [decodeFrame_of_not_hdrOk (by omega) hh, decodeFrame_of_not_hdrOk (by omega) (by rwa [← h0, ← h1])]
  have hh' : hdrOk (byteAt b' 0) (byteAt b' 1) = true := by rwa [← h0, ← h1]
  by_cases hc4 : c < 4
  · rw [decodeFrame_of_lt_four (by omega) hh hc4, decodeFrame_of_lt_four (by omega) hh' hc4]
  have h3 : (byteAt b 3).toNat = (byteAt b' 3).toNat := congrArg BitVec.toNat (h 3 (by omega))
  by_cases hl : (byteAt b 3).toNat < 3
  · rw [decodeFrame_of_implausible (by omega) hh hl, decodeFrame_of_implausible (by omega) hh' (h3 ▸ hl)]
  by_cases hu : 13 < (byteAt b 3).toNat
  · rw [decodeFrame_of_oversize (by omega) hh hu, decodeFrame_of_oversize (by omega) hh' (h3 ▸ hu)]
  by_cases hlt : c < 3 + (byteAt b 3).toNat
  · rw [decodeFrame_of_incomplete (by omega) hh (by omega) (by omega) hlt,
      decodeFrame_of_incomplete (by omega) hh' (by omega) (by omega) (h3 ▸ hlt)]
  rw [decodeFrame_whole hh (by omega) (by omega) (by omega), decodeFrame_whole hh' (by omega) (by omega) (by omega),
    ← h3, take_drop_congr h (show 2 + (byteAt b 3).toNat ≤ c by omega), h (2 + (byteAt b 3).toNat) (by omega)]

/-- Settles O50: an equation per check, and the frame's checksum decides the rest. -/
theorem decodeFrameChecksInOrder : Obligations.DecodeFrameChecksInOrder := by
  refine ⟨fun b c _ => ?_, fun b b' c hc h => decodeFrame_congr fun i hi => ?_⟩
  · have hdr : hdrOk (byteAt b 0) (byteAt b 1) = true ↔ b[0] = 0x55 ∧ b[1] = 0x55 := by
      rw [hdrOk_iff, byteAt_eq b 0, byteAt_eq b 1]
    rw [← hdr, ← byteAt_eq b 3, List.drop_take, Nat.add_sub_cancel_left]
    refine ⟨decodeFrame_of_lt_two, decodeFrame_of_not_hdrOk,
      fun hc hc4 h0 h1 => decodeFrame_of_lt_four hc (hdr.mpr ⟨h0, h1⟩) hc4, fun hc h0 h1 => ?_⟩
    have hh := hdr.mpr ⟨h0, h1⟩
    refine ⟨decodeFrame_of_implausible hc hh, decodeFrame_of_oversize hc hh, fun hl hu =>
      ⟨decodeFrame_of_incomplete hc hh hl hu, fun hle hck => ?_, fun hle hck => ?_⟩⟩
    · exact decodeFrame_of_cks_ne hh hl (by omega) hle hck.symm
    · rw [decodeFrame_whole hh hl (by omega) hle, if_pos hck.symm]
  · have hi16 : i < 16 := by omega
    rw [byteAt_eq b i hi16, byteAt_eq b' i hi16]
    exact h ⟨i, hi16⟩ hi

/-! ### A valid frame with one byte changed -/

/-- The entries of a buffer with one of them changed. -/
theorem byteAt_set (b : Vector Byte 16) {i : Nat} (hi : i < 16) (v : Byte) (j : Nat) :
    byteAt (b.set i v) j = if i = j then v else byteAt b j := by
  rcases Nat.lt_or_ge j 16 with hj | hj
  · rw [byteAt_eq _ _ hj, byteAt_eq _ _ hj, Vector.getElem_set]
  · rw [byteAt_ge _ _ hj, byteAt_ge _ _ hj, if_neg (by omega)]

/-- Of the bytes under the checksum a change at `i` reaches at most the entry at `i - 2`. -/
theorem checked_set (b : Vector Byte 16) {i : Nat} (hi : i < 16) (h2 : 2 ≤ i) (v : Byte) (l : Nat) :
    ((b.set i v).toList.drop 2).take l = ((b.toList.drop 2).take l).set (i - 2) v := by
  rw [Vector.toList_set, List.drop_set, if_neg (by omega), List.take_set]

/-- Settles O53: a changed header byte fails HDR_OK; a changed length byte leaves the header and is what the next checks
read. -/
theorem headerOrLengthChangeIsClassified : Obligations.HeaderOrLengthChangeIsClassified := by
  intro b f v h
  obtain ⟨hf, hh, hl, hu, _, _⟩ := decodeFrame_ok h
  obtain ⟨h0, h1⟩ := (hdrOk_iff _ _).mp hh
  have hhdr : hdrOk (byteAt (b.set 3 v) 0) (byteAt (b.set 3 v) 1) = true := by simpa [byteAt_set] using hh
  have hlen : byteAt (b.set 3 v) 3 = v := by simp [byteAt_set]
  refine ⟨fun hv => ?_, fun hv => ?_, fun hv => ?_, fun hv => ?_, fun hv hlt => ?_⟩
  · rw [← byteAt_eq, h0] at hv
    exact decodeFrame_of_not_hdrOk (by omega) fun e => hv (by simpa [byteAt_set] using ((hdrOk_iff _ _).mp e).1)
  · rw [← byteAt_eq, h1] at hv
    exact decodeFrame_of_not_hdrOk (by omega) fun e => hv (by simpa [byteAt_set] using ((hdrOk_iff _ _).mp e).2)
  · exact decodeFrame_of_implausible (by omega) hhdr (by rwa [hlen])
  · exact decodeFrame_of_oversize (by omega) hhdr (by rwa [hlen])
  · exact decodeFrame_of_incomplete (by omega) hhdr (by rw [hlen]; omega) (by rwa [hlen]) (by rwa [hlen])

/-- Settles O52: header and length stay, and the change falls either on the checksum or on a byte it is taken over. -/
theorem singleByteChangeIsDetected : Obligations.SingleByteChangeIsDetected := by
  intro b f ⟨j, hj⟩ v h hplace hjf hv
  obtain ⟨rfl, hh, hl, hu, _, hck⟩ := decodeFrame_ok h
  simp only at hplace hjf hv ⊢
  have hset := byteAt_set b hj v
  have hstay : ∀ i, j ≠ i → byteAt (b.set j v) i = byteAt b i := fun i hi => by rw [hset, if_neg hi]
  have h0 := hstay 0 (by omega)
  have h1 := hstay 1 (by omega)
  have h3 := hstay 3 (by omega)
  refine decodeFrame_of_cks_ne (by rwa [h0, h1]) (by rwa [h3]) (by rwa [h3]) (by rw [h3]) ?_
  rw [h3, checked_set b hj (by omega), hset]
  set l := (byteAt b 3).toNat
  by_cases hlast : j = 2 + l
  · rw [if_pos hlast, List.set_eq_of_length_le (by simp; omega), hck, ← hlast, byteAt_eq b j hj]
    exact hv.symm
  · rw [if_neg hlast, ← hck]
    refine cks_set_ne (by simp; omega) ?_
    simpa [show 2 + (j - 2) = j by omega] using hv

end Sys2Proof.Machine

/-! PROOFS. ENCODE and DECODE, which complete in the step that starts them (spec/40_frame_codec.md R116, R117;
spec/42_host_access.md R184). -/

namespace Sys2Proof.Machine

/-- A start while BUSY = 0 is accepted (R184). -/
theorem guardedStart_of_idle {c : State → State} {s : State} (hb : s.status.busy = false) :
    guardedStart c s = c (acceptStart s) := by
  rcases guardedStart_cases c s with ⟨hb', _⟩ | ⟨_, e⟩
  · cases hb.symm.trans hb'
  · exact e

/-! ### ENCODE -/

/-- An accepted ENCODE runs the command (R116, R184). -/
theorem exec_ctrlEncode {s : State} (hb : s.status.busy = false) :
    exec .ctrlEncode s = .next (encodeCommand (acceptStart s)) :=
  congrArg Host.Outcome.next (guardedStart_of_idle hb)

/-- An accepted ENCODE whose request is refused empties TXBUF (R116). -/
theorem exec_ctrlEncode_of_error {s : State} {r : Raised} (hb : s.status.busy = false)
    (h : encodeFrame s.reqId s.reqCmd s.reqNparam s.reqParam = .error r) :
    exec .ctrlEncode s = .next { s with
      status := ⟨false, true, false, false⟩, result := resultByte r, fsm := .idle,
      txlen := 0, txbuf := zeroBuf } := by
  rcases encodeCommand_cases (acceptStart s) with ⟨f, hf, _⟩ | ⟨r', hr, e⟩
  · cases h.symm.trans hf
  · obtain rfl : r = r' := Except.error.inj (h.symm.trans hr)
    rw [exec_ctrlEncode hb, e, ← bufOfList_nil]
    rfl

/-- An accepted ENCODE whose request encodes puts the frame into TXBUF (R116). -/
theorem exec_ctrlEncode_of_ok {s : State} {f : List Byte} (hb : s.status.busy = false)
    (h : encodeFrame s.reqId s.reqCmd s.reqNparam s.reqParam = .ok f) :
    exec .ctrlEncode s = .next { s with
      status := ⟨false, true, false, false⟩, result := 0x00, fsm := .idle,
      txlen := BitVec.ofNat 8 f.length, txbuf := bufOfList f } := by
  rcases encodeCommand_cases (acceptStart s) with ⟨f', hf, e⟩ | ⟨r, hr, _⟩
  · obtain rfl : f = f' := Except.ok.inj (h.symm.trans hf)
    rw [exec_ctrlEncode hb, e]
    rfl
  · cases h.symm.trans hr

/-- A buffer that holds a list has the list's bytes. -/
theorem byteAt_bufOfList {f : List Byte} {i : Nat} {x : Byte} (hi : i < 16) (hx : f[i]? = some x) :
    byteAt (bufOfList f) i = x := by
  rw [byteAt_eq _ _ hi, getElem_bufOfList, List.getD_eq_getElem?_getD, hx, Option.getD_some]

/-- Settles O16: the two refusals of EncodeFrame, and its frame read at each entry of TXBUF. -/
theorem encodeBuildsTheFrameOrRefuses : Obligations.EncodeBuildsTheFrameOrRefuses := by
  intro s hb
  refine ⟨fun hn => exec_ctrlEncode_of_error hb (encodeFrame_of_params_gt hn),
    fun hn hid => exec_ctrlEncode_of_error hb (encodeFrame_of_id_eq hn hid), fun hn hid => ?_⟩
  obtain ⟨f, hf⟩ := exists_encodeFrame_ok (cmd := s.reqCmd) (p := s.reqParam) hn hid
  have hlen := (encodeFrame_length hf).1
  have hbytes := encodeFrame_bytes hf
  refine ⟨bufOfList f, hlen ▸ exec_ctrlEncode_of_ok hb hf, ?hdr0, ?hdr1, ?id, ?length, ?command,
    fun i hi => byteAt_bufOfList (by omega) (encodeFrame_param hf i hi), ?checksum, fun j hj => by simp [hlen, hj]⟩
  case hdr0 | hdr1 | id | command => rw [getElem_bufOfList, hbytes]; rfl
  case length =>
    rw [getElem_bufOfList, hbytes, Nat.add_comm]
    exact toNat_lengthByte hn
  case checksum => rw [byteAt_bufOfList (by omega) (encodeFrame_checksum hf), toNat_cks, sum_frameBody hn]

/-! ### DECODE -/

/-- An accepted DECODE runs the command (R117, R184). -/
theorem exec_ctrlDecode {s : State} (hb : s.status.busy = false) :
    exec .ctrlDecode s = .next (decodeCommand (acceptStart s)) :=
  congrArg Host.Outcome.next (guardedStart_of_idle hb)

/-- An accepted DECODE of more bytes than RXBUF holds is refused (R117). -/
theorem exec_ctrlDecode_of_gt {s : State} (hb : s.status.busy = false) (hc : 16 < s.rxcnt.toNat) :
    exec .ctrlDecode s = .next { s with
      status := ⟨false, true, false, false⟩, result := 0x37, fsm := .idle, expLen := 0 } := by
  rcases decodeCommand_cases (acceptStart s) with ⟨_, e⟩ | ⟨hle, _⟩
  · rw [exec_ctrlDecode hb, e]
    rfl
  · exact absurd hc (Nat.not_lt.mpr hle)

/-- EXP_LEN after DECODE: the declared length, where the checks up to OVERSIZE passed (R117). -/
def decodedExpLen (b : Vector Byte 16) (c : Nat) : Byte :=
  if declaresLength (decodeFrame b c) then BitVec.ofNat 8 (3 + (byteAt b 3).toNat) else 0

/-- An accepted DECODE raises what DecodeFrame answers (R117). -/
theorem exec_ctrlDecode_of_le {s : State} (hb : s.status.busy = false) (hc : s.rxcnt.toNat ≤ 16) :
    exec .ctrlDecode s = .next { s with
      status := ⟨false, true, false, false⟩, result := resultByte (raisedBy (decodeFrame s.rxbuf s.rxcnt.toNat)),
      fsm := .idle, expLen := decodedExpLen s.rxbuf s.rxcnt.toNat } := by
  rcases decodeCommand_cases (acceptStart s) with ⟨hgt, _⟩ | ⟨_, e⟩
  · exact absurd hc (Nat.not_le.mpr hgt)
  · rw [exec_ctrlDecode hb, e]
    rfl

/-- DecodeFrame passes the OVERSIZE check only on a length that fits the buffer (R112, R117). -/
theorem le_of_declaresLength {b : Vector Byte 16} {c : Nat} (h : declaresLength (decodeFrame b c) = true) :
    3 + (byteAt b 3).toNat ≤ 16 := by
  by_contra hgt
  by_cases hc2 : c < 2
  · rw [decodeFrame_of_lt_two hc2] at h
    cases h
  by_cases hh : hdrOk (byteAt b 0) (byteAt b 1) = true
  swap
  · rw [decodeFrame_of_not_hdrOk (by omega) hh] at h
    cases h
  by_cases hc4 : c < 4
  · rw [decodeFrame_of_lt_four (by omega) hh hc4] at h
    cases h
  · rw [decodeFrame_of_oversize (by omega) hh (by omega)] at h
    cases h

/-- A declared length is not narrowed (R117). -/
theorem toNat_decodedExpLen {b : Vector Byte 16} {c : Nat} (h : declaresLength (decodeFrame b c) = true) :
    (decodedExpLen b c).toNat = 3 + (byteAt b 3).toNat := by
  have hle := le_of_declaresLength h
  rw [decodedExpLen, if_pos h, BitVec.toNat_ofNat]
  omega

/-- RESULT's two fields (R91). -/
theorem resultByte_fields (r : Raised) :
    (resultByte r).extractLsb' 0 4 = codeBits r.code ∧ (resultByte r).extractLsb' 4 4 = r.detail :=
  ⟨BitVec.extractLsb'_append_eq_right, BitVec.extractLsb'_append_eq_left⟩

/-- Settles O17: DECODE's completion carries DecodeFrame's outcome and the length it declares. -/
theorem decodeReportsTheCodecsVerdict : Obligations.DecodeReportsTheCodecsVerdict := by
  intro s hb
  refine ⟨exec_ctrlDecode_of_gt hb, fun hc =>
    ⟨_, _, exec_ctrlDecode_of_le hb hc, fun f hf => ?_, fun x hx => ?_⟩⟩
  · rw [toNat_decodedExpLen (by rw [hf]; rfl), hf, ← (decodeFrame_ok hf).1]
    exact ⟨show resultByte ⟨.ok, 0⟩ = 0x00 by decide, rfl⟩
  · rw [hx]
    obtain ⟨hcode, hdetail⟩ := resultByte_fields x
    refine ⟨hcode, hdetail, fun hdecl => ?_, fun h4 hck => ?_⟩
    · rw [toNat_decodedExpLen (by rw [hx]; exact decide_eq_true hdecl), byteAt_eq]
    · rw [decodedExpLen, hx, if_neg fun e => (of_decide_eq_true e).elim h4 hck]

end Sys2Proof.Machine

/-! PROOFS. The receive buffer's writes, and an engine turn in each read phase by the transport's answer
(spec/41_transaction.md R147 to R160). -/

namespace Sys2Proof.Machine

/-! ### The receive buffer -/

/-- Settles O23: each entry of RXBUF is below, at or past the place of the bytes appended. -/
theorem appendStoresAfterTheBytesHeld : Obligations.AppendStoresAfterTheBytesHeld := by
  intro s bytes hfits
  refine ⟨appendRx_count hfits, fun i hi => ?_, fun j hj => ?_, rfl⟩
  · rw [appendRx_byteAt _ _ _ (by omega), if_pos (by omega), Nat.add_sub_cancel_left, List.getD_eq_getElem _ _ hi]
  · have hkept := appendRx_byteAt bytes s j.val j.isLt
    rwa [if_neg (by omega), byteAt_eq _ _ j.isLt, byteAt_eq _ _ j.isLt] at hkept

/-- `resync()` shifts exactly where two bytes are held and the first two are no header (R111, R152). -/
theorem needsShift_iff (s : State) :
    needsShift s = true ↔ 2 ≤ s.rxcnt.toNat ∧ ¬ (s.rxbuf[0] = 0x55 ∧ s.rxbuf[1] = 0x55) := by
  rw [needsShift, Bool.and_eq_true, decide_eq_true_iff, Bool.not_eq_true', ← Bool.not_eq_true, hdrOk_iff,
    byteAt_eq s.rxbuf 0 (by omega), byteAt_eq s.rxbuf 1 (by omega)]

/-- Settles O24: `needsShift_iff` says when there is a shift, and `shiftRx_byteAt` what it leaves at each entry. -/
theorem resyncShiftsOneByteOrNothing : Obligations.ResyncShiftsOneByteOrNothing := by
  intro s h16
  refine ⟨fun h2 hhdr => ?shift, fun hno => ?keep⟩
  case shift =>
    rw [resync, if_pos ((needsShift_iff s).mpr ⟨h2, hhdr⟩)]
    refine ⟨shiftRx_count s, fun i hi => ?_, ?_, fun j hj => ?_, rfl⟩
    · rw [shiftRx_byteAt _ _ (by omega), if_pos hi]
    · rw [shiftRx_byteAt _ _ (by omega), if_neg (by omega), if_pos (by omega)]
    · have hkept := shiftRx_byteAt s j.val j.isLt
      rwa [if_neg (by omega), if_neg (by omega), byteAt_eq _ _ j.isLt, byteAt_eq _ _ j.isLt] at hkept
  case keep =>
    rw [resync, if_neg fun hn => ?_]
    obtain ⟨h2, hhdr⟩ := (needsShift_iff s).mp hn
    exact hno.elim (fun h => by omega) hhdr

/-! ### A failed read -/

section
variable {tm : Timing} {s : State}

theorem echoStep_err (h : s.echoRem ≠ 0) :
    echoStep tm .err s = .next (complete ⟨.transportFailure, 3⟩ s) :=
  if_neg h

theorem headerStep_err (h : s.rxcnt.toNat ≤ 3) :
    headerStep tm .err s = .next (complete ⟨.transportFailure, 4⟩ s) :=
  if_neg (show ¬ 4 ≤ s.rxcnt.toNat by omega)

theorem bodyStep_err (h : s.rxcnt.toNat < s.expLen.toNat) :
    bodyStep .err s = .next (complete ⟨.transportFailure, 5⟩ s) :=
  if_neg (Nat.not_le.mpr h)

end

/-- Settles O22: in each phase a failed read completes at once, and a completion writes three registers. -/
theorem failedReadAppendsNothing : Obligations.FailedReadAppendsNothing := by
  intro tm s hb
  refine ⟨fun hf h => ?echo, fun hf h => ?header, fun hf h => ?body⟩
  case echo => exact (engineStep_of_echo hb hf).trans (echoStep_err h)
  case header => exact (engineStep_of_header hb hf).trans (headerStep_err h)
  case body => exact (engineStep_of_body hb hf).trans (bodyStep_err h)

/-! ### A successful read -/

section
variable {tm : Timing} {u : Nat} {s : State}

/-- A successful echo read, by what is left of the echo (R147). -/
theorem echoStep_ok (h : s.echoRem ≠ 0) :
    echoStep tm (.ok u) s = .next (afterEchoRead tm (min s.echoRem.toNat s.rxq.length) (echoRead s)) := by
  simp only [echoStep, if_neg h, transportRead_ok, List.length_take]
  rfl

/-- A successful header read goes to the checks after it (R150). -/
theorem headerStep_ok (h : s.rxcnt.toNat ≤ 3) :
    headerStep tm (.ok u) s = .next (afterHeaderRead tm (headerRead s)) :=
  if_neg (show ¬ 4 ≤ s.rxcnt.toNat by omega)

/-- A successful body read goes to the checks after it (R157). -/
theorem bodyStep_ok (h : s.rxcnt.toNat < s.expLen.toNat) (h16 : s.expLen.toNat ≤ 16) :
    bodyStep (.ok u) s = afterBodyRead (bodyRead s) := by
  have hfits : ¬ Config.maxFrame < s.rxcnt.toNat + (s.rxq.take (s.expLen.toNat - s.rxcnt.toNat)).length := by
    rw [List.length_take, Config.maxFrame]
    omega
  rw [bodyStep, if_neg (Nat.not_le.mpr h), transportRead_ok]
  exact if_neg hfits

end

/-- An echo read with the rest of the echo pending drops that many bytes (R147, R148). -/
theorem echoRead_of_le {s : State} (h : s.echoRem.toNat ≤ s.rxq.length) :
    echoRead s = { s with rxq := s.rxq.drop s.echoRem.toNat, echoRem := 0 } := by
  rw [echoRead, Nat.min_eq_left h, countEcho, consume_echoRem, Nat.sub_self]
  rfl

/-- An echo read with less than the rest of the echo pending drops all that is pending (R147, R148). -/
theorem echoRead_of_lt {s : State} (h : s.rxq.length < s.echoRem.toNat) :
    echoRead s = { s with rxq := [], echoRem := BitVec.ofNat 8 (s.echoRem.toNat - s.rxq.length) } := by
  rw [echoRead, Nat.min_eq_right h.le, countEcho, consume_echoRem, consume, List.drop_eq_nil_of_le h.le]

/-- Settles O21: the number of bytes read decides what is left of the echo and whether the phase ends. -/
theorem echoIsDiscardedByCount : Obligations.EchoIsDiscardedByCount := by
  intro tm s u hb hf hne
  have hpos : 0 < s.echoRem.toNat := Nat.pos_of_ne_zero fun h => hne (BitVec.eq_of_toNat_eq h)
  rw [engineStep_of_echo hb hf, echoStep_ok hne]
  refine ⟨fun hall => ?all, fun hnone => ?none, fun hsome hlt => ?some⟩
  case all =>
    rw [echoRead_of_le hall, afterEchoRead, if_pos (.inl rfl)]
    rfl
  case none =>
    have hzero : s.rxq.length = 0 := congrArg List.length hnone
    have hkept : echoRead s = s := by
      rw [echoRead_of_lt (hzero ▸ hpos), hzero, Nat.sub_zero, BitVec.ofNat_toNat, BitVec.setWidth_eq, ← hnone]
    rw [hkept, afterEchoRead, if_pos (.inr (by omega))]
    rfl
  case some =>
    have hleft : (BitVec.ofNat 8 (s.echoRem.toNat - s.rxq.length)).toNat = s.echoRem.toNat - s.rxq.length := by
      rw [BitVec.toNat_ofNat]
      omega
    rw [echoRead_of_lt hlt, afterEchoRead, if_neg]
    rintro (h | h)
    · have hzero : (BitVec.ofNat 8 (s.echoRem.toNat - s.rxq.length)).toNat = 0 := congrArg BitVec.toNat h
      omega
    · omega

/-- Completion from what a header read leaves. -/
theorem complete_headerRead (r : Raised) (s : State) :
    complete r (headerRead s) = { headerRead s with result := resultByte r, status := doneStatus s, fsm := .idle } := by
  rw [complete, headerRead_status]
  rfl

/-- Settles O25: the bytes held decide between the length checks and the deadline. -/
theorem headerStepCompletesTimesOutOrWaits : Obligations.HeaderStepCompletesTimesOutOrWaits := by
  intro tm s r u hb hf hc hr
  subst hr
  obtain ⟨hle, hhdr⟩ := headerRead_count hc
  have h3 : (headerRead s).rxbuf[3] = byteAt (headerRead s).rxbuf 3 := (byteAt_eq _ _ (by omega)).symm
  rw [engineStep_of_header hb hf, headerStep_ok hc, h3]
  refine ⟨fun h4 => ?complete, fun h4 => ?incomplete⟩
  case complete =>
    have hafter : afterHeaderRead tm (headerRead s) = headerComplete tm (headerRead s) := if_pos h4
    rw [hafter]
    refine ⟨?_, fun hlt => ?_, fun hgt => ?_, fun hmin hmax => ?_⟩
    · rw [← byteAt_eq, ← byteAt_eq]
      exact (hdrOk_iff _ _).mp (hhdr h4)
    · rw [headerComplete, if_pos ((implausible_iff _).mpr hlt), complete_headerRead]
      rfl
    · rw [headerComplete, if_neg (by rw [implausible_iff]; omega), if_pos ((oversize_iff _).mpr hgt),
        complete_headerRead]
      rfl
    · rw [headerComplete, if_neg (by rw [implausible_iff]; omega), if_neg (by rw [oversize_iff]; omega), startBody,
        headerRead_now]
  case incomplete =>
    have hlate : deadlinePassed (headerRead s) = true ↔ s.deadline ≤ s.now := by
      rw [deadlinePassed, decide_eq_true_iff, headerRead_deadline, headerRead_now]
    have hafter : afterHeaderRead tm (headerRead s) =
        if deadlinePassed (headerRead s) then complete ⟨.timeoutAwaitingHeader, 0⟩ (headerRead s)
        else headerRead s := if_neg h4
    rw [hafter]
    refine ⟨by omega, fun hd => ?_, fun hd => ?_⟩
    · rw [if_pos (hlate.mpr hd), complete_headerRead]
      rfl
    · rw [if_neg fun h => absurd (hlate.mp h) (Nat.not_le.mpr hd)]

/-- The final decode of a complete frame: the checksum over b[2 .. L+1], at b[L+2], decides (R110, R158). -/
theorem finalDecode_of_whole {s : State} (hh : hdrOk (byteAt s.rxbuf 0) (byteAt s.rxbuf 1) = true)
    (hl : 3 ≤ (byteAt s.rxbuf 3).toNat) (hc : s.rxcnt.toNat = 3 + (byteAt s.rxbuf 3).toNat)
    (hle : s.rxcnt.toNat ≤ 16) :
    finalDecode s = .next (complete
      (if byteAt s.rxbuf (s.rxcnt.toNat - 1) = cks ((s.rxbuf.toList.take (s.rxcnt.toNat - 1)).drop 2)
       then ⟨.ok, 0⟩ else ⟨.checksumMismatch, 0⟩) s) := by
  have hlast : s.rxcnt.toNat - 1 = 2 + (byteAt s.rxbuf 3).toNat := by omega
  rw [finalDecode, decodeFrame_whole hh hl (hc ▸ hle) hc.ge, hlast, List.drop_take, Nat.add_sub_cancel_left]
  by_cases hck : cks ((s.rxbuf.toList.drop 2).take (byteAt s.rxbuf 3).toNat) =
      byteAt s.rxbuf (2 + (byteAt s.rxbuf 3).toNat)
  · rw [if_pos hck, if_pos hck.symm]
  · rw [if_neg hck, if_neg (Ne.symm hck)]
    exact if_pos rfl

/-- Settles O26: EXP_LEN bytes held are the frame that the header declares, so the checksum alone decides. -/
theorem bodyStepDecodesTimesOutOrWaits : Obligations.BodyStepDecodesTimesOutOrWaits := by
  intro tm s r u hb hf hinv hr
  subst hr
  have held := (bodyInv_iff tm s).mp hinv hf
  obtain ⟨_, hle⟩ := bodyRead_count held.lt_expLen.le
  rw [engineStep_of_body hb hf, bodyStep_ok held.lt_expLen held.expLen_le]
  refine ⟨fun hall => ?complete, fun hnot => ?incomplete⟩
  case complete =>
    have hcnt : (bodyRead s).rxcnt.toNat = s.expLen.toNat := congrArg BitVec.toNat hall
    have hafter : afterBodyRead (bodyRead s) = finalDecode (bodyRead s) := if_pos hall
    have h0 := held.byteAt_bodyRead (i := 0) (by omega)
    have h1 := held.byteAt_bodyRead (i := 1) (by omega)
    have h3 := held.byteAt_bodyRead (i := 3) (by omega)
    rw [hafter, finalDecode_of_whole (by rw [h0, h1]; exact held.hdr) (by rw [h3]; exact held.plausible)
      (by rw [h3, hcnt]; exact held.expLen) (hcnt.le.trans held.expLen_le), hcnt]
    refine ⟨fun hck => ?_, fun hck => ?_⟩
    · rw [if_pos hck]
      rfl
    · rw [if_neg hck]
      rfl
  case incomplete =>
    refine ⟨lt_of_le_of_ne hle fun e => hnot (BitVec.eq_of_toNat_eq e), fun hd => ?_, fun hd => ?_⟩
    · exact (if_neg hnot).trans (if_pos (decide_eq_true hd))
    · exact (if_neg hnot).trans (if_neg fun h => absurd (of_decide_eq_true h) (Nat.not_le.mpr hd))

end Sys2Proof.Machine

/-! PROOFS. The start of a TRANSACT, what reaches its SENDING step, and what ends it
(spec/41_transaction.md R140 to R145, R161). -/

namespace Sys2Proof.Machine

/-! ### The start -/

/-- An accepted TRANSACT runs the command (R140, R184). -/
theorem exec_ctrlTransact {s : State} (want : Bool) (hb : s.status.busy = false) :
    exec (.ctrlTransact want) s = .next (transactCommand want (acceptStart s)) :=
  congrArg Host.Outcome.next (guardedStart_of_idle hb)

/-- An accepted TRANSACT whose request is refused completes with an empty session (R140, R142). -/
theorem exec_ctrlTransact_of_error {s : State} {r : Raised} (want : Bool) (hb : s.status.busy = false)
    (h : encodeFrame s.reqId s.reqCmd s.reqNparam s.reqParam = .error r) :
    exec (.ctrlTransact want) s = .next { s with
      status := ⟨false, true, false, false⟩, result := resultByte r, fsm := .idle, txlen := 0, txbuf := zeroBuf,
      rxcnt := 0, rxbuf := zeroBuf, echoRem := 0, expLen := 0, deadline := 0 } := by
  rcases transactCommand_cases want (acceptStart s) with ⟨r', hr, e⟩ | ⟨f, hf, _⟩
  · obtain rfl : r = r' := Except.error.inj (h.symm.trans hr)
    rw [exec_ctrlTransact want hb, e]
    rfl
  · cases h.symm.trans hf

/-- What an accepted TRANSACT leaves with the frame `f` of its request in TXBUF: an empty session in SENDING (R140 to
R142). -/
def sessionWith (want : Bool) (f : List Byte) (s : State) : State :=
  { s with
    status := ⟨true, false, false, want && s.reqId != 254⟩, result := 0x00, fsm := .sending,
    txlen := BitVec.ofNat 8 f.length, txbuf := bufOfList f,
    rxcnt := 0, rxbuf := zeroBuf, echoRem := 0, expLen := 0, deadline := 0 }

/-- An accepted TRANSACT whose request encodes starts the engine (R140). -/
theorem exec_ctrlTransact_of_ok {s : State} {f : List Byte} (want : Bool) (hb : s.status.busy = false)
    (h : encodeFrame s.reqId s.reqCmd s.reqNparam s.reqParam = .ok f) :
    exec (.ctrlTransact want) s = .next (sessionWith want f s) := by
  rcases transactCommand_cases want (acceptStart s) with ⟨r, hr, _⟩ | ⟨f', hf, e⟩
  · cases h.symm.trans hr
  · obtain rfl : f = f' := Except.ok.inj (h.symm.trans hf)
    rw [exec_ctrlTransact want hb, e]
    rfl

/-- Settles O18: EncodeFrame's answer decides between the session and the refusal. -/
theorem transactStartsTheEngineOrRefuses : Obligations.TransactStartsTheEngineOrRefuses := by
  intro s want hb
  refine ⟨fun hn hid => ?_, fun hn => exec_ctrlTransact_of_error want hb (encodeFrame_of_params_gt hn),
    fun hn hid => exec_ctrlTransact_of_error want hb (encodeFrame_of_id_eq hn hid)⟩
  obtain ⟨f, hf⟩ := exists_encodeFrame_ok (cmd := s.reqCmd) (p := s.reqParam) hn hid
  exact ⟨f, hf, (encodeFrame_length hf).1 ▸ exec_ctrlTransact_of_ok want hb hf⟩

/-! ### The SENDING step -/

/-- SENDING discards the pending input before it does anything else, so it forgets it (R144). -/
theorem engineStep_sending_discard (tm : Timing) (a : Answer) {s : State} (q : List Byte) (hb : s.status.busy = true)
    (hf : s.fsm = .sending) : engineStep tm a { s with rxq := q } = engineStep tm a s := by
  rw [engineStep_of_sending hb hf]
  exact engineStep_of_sending (s := { s with rxq := q }) hb hf

/-- Settles O41: the two starts leave states that differ in the pending input alone, which the engine's turn
discards. -/
theorem exchangeForgetsTheOneBefore : Obligations.ExchangeForgetsTheOneBefore := by
  intro tm s s' t t' want a es hb hb' hn hid hreqId hreqCmd hreqNparam hreqParam hnow hline hreads hupcoming hdraws
    ht ht'
  obtain ⟨f, hf⟩ := exists_encodeFrame_ok (cmd := s.reqCmd) (p := s.reqParam) hn hid
  have hf' : encodeFrame s'.reqId s'.reqCmd s'.reqNparam s'.reqParam = .ok f := by
    rw [hreqId, hreqCmd, hreqNparam, hreqParam, hf]
  obtain rfl : sessionWith want f s = t := Host.Outcome.next.inj ((exec_ctrlTransact_of_ok want hb hf).symm.trans ht)
  obtain rfl : sessionWith want f s' = t' :=
    Host.Outcome.next.inj ((exec_ctrlTransact_of_ok want hb' hf').symm.trans ht')
  have hsame : sessionWith want f s' = { sessionWith want f s with rxq := s'.rxq } := by
    unfold sessionWith
    rw [hreqId, hreqCmd, hreqNparam, hreqParam, hnow, hline, hreads, hupcoming, hdraws]
  have hturn : perform tm (.engine a) (sessionWith want f s') = perform tm (.engine a) (sessionWith want f s) := by
    rw [hsame]
    exact engineStep_sending_discard tm a s'.rxq rfl rfl
  rw [performAll, performAll, hturn]

/-- Where no reply is expected, SENDING completes whatever the transport answers, and keeps REPLY_EXP (R144, R145). -/
theorem sendingStep_noReply {a : Answer} {s : State} (hr : s.status.replyExp = false) (hl : s.txlen.toNat ≤ 16) :
    ∃ t, sendingStep a s = .next t ∧ t.status.busy = false ∧ t.status.replyExp = false := by
  obtain ⟨t, ht⟩ := sendingStep_runs a hl
  refine ⟨t, ht, ?_⟩
  obtain ⟨_, ⟨_, rfl⟩ | ⟨_, _, _, rfl⟩ | ⟨_, _, _, hr', _⟩ | ⟨_, _, _, _, rfl⟩⟩ := sendingStep_cases ht
  · exact ⟨rfl, hr⟩
  · exact ⟨rfl, hr⟩
  · cases hr.symm.trans hr'
  · exact ⟨rfl, hr⟩

/-- Settles O42: id 254 gives REPLY_EXP = 0 at the start, and SENDING then has no phase to go on to. -/
theorem broadcastNeverWaitsForAReply : Obligations.BroadcastNeverWaitsForAReply := by
  intro tm s t want hb hid hn ht
  obtain ⟨f, hf⟩ := exists_encodeFrame_ok (cmd := s.reqCmd) (p := s.reqParam) hn
    (show s.reqId ≠ 255 by rw [hid]; decide)
  obtain rfl : sessionWith want f s = t := Host.Outcome.next.inj ((exec_ctrlTransact_of_ok want hb hf).symm.trans ht)
  have hr : (sessionWith want f s).status.replyExp = false := by
    change (want && s.reqId != 254) = false
    rw [hid]
    exact Bool.and_false want
  have hl : (sessionWith want f s).txlen.toNat ≤ 16 := by
    obtain ⟨hlen, _⟩ := encodeFrame_length hf
    change (BitVec.ofNat 8 f.length).toNat ≤ 16
    rw [toNat_ofNat_encodeFrame_length hf]
    omega
  refine ⟨fun a => ?_, ?_⟩
  · rw [engineStep_of_sending rfl rfl]
    exact sendingStep_noReply hr hl
  · obtain ⟨_, _, hwhole, _⟩ := sendingDiscardsWritesAndGoesOn tm (sessionWith want f s) rfl rfl hl
    exact ⟨_, hwhole hr, rfl, rfl, rfl⟩

/-! ### What ends a TRANSACT -/

/-- A host access in flight leaves every register of the exchange (R161, R183, R186). -/
theorem HostFrame.of_busy {s t : State} (h : HostFrame s t) (hb : s.status.busy = true) :
    t = { s with
      status := { s.status with rejected := t.status.rejected },
      reqId := t.reqId, reqCmd := t.reqCmd, reqNparam := t.reqNparam, reqParam := t.reqParam,
      hostReads := t.hostReads } := by
  obtain ⟨hcnt, hbuf⟩ := h.receive hb
  conv_lhs => rw [h.frame, hcnt, hbuf]

/-- No instruction is accepted as a start while BUSY = 1 (R183). -/
theorem hostFrame_of_busy {i : Instr} {s t : State} (hb : s.status.busy = true) (h : exec i s = .next t) :
    HostFrame s t := by
  rcases exec_frame_or_started h with hframe | ⟨hb', _⟩
  · exact hframe
  · cases hb.symm.trans hb'

/-- Settles O31: of the agents only the engine and the platform clear BUSY, and the engine does by completing. -/
theorem noHostActionEndsATransact : Obligations.NoHostActionEndsATransact := by
  refine ⟨fun i s t hb h => (hostFrame_of_busy hb h).of_busy hb, fun tm e s t hb h hidle => ?_⟩
  have hbusy (hs : t.status.busy = s.status.busy) : False := nomatch hidle.symm.trans (hs.trans hb)
  rcases perform_cases h with ⟨w, i, _, _, hx⟩ | ⟨a, rfl, hx⟩ | ⟨b, _, rfl⟩ | ⟨_, rfl⟩ | ⟨rfl, _⟩
  · have hframe := (hostFrame_of_busy hb hx).frame
    exact (hbusy (by rw [hframe])).elim
  · rcases engineStep_completes_or_goes_on hx with ⟨hb', _⟩ | ⟨_, hc | hg⟩
    · cases hb.symm.trans hb'
    · exact .inr ⟨a, rfl, congrArg Status.done hc.status, hc.fsm⟩
    · obtain ⟨hs, _, _⟩ := hg.status_result_fsm
      exact (hbusy (congrArg Status.busy hs)).elim
  · exact (hbusy rfl).elim
  · exact (hbusy rfl).elim
  · exact .inl rfl

end Sys2Proof.Machine

/-! PROOFS. Runs of the engine, the line and the clock: the phases in their order, the turns left of the first two, and
the deadlines of the other two (spec/41_transaction.md R143 to R159, section 7; spec/60_exceptions.md R262 to R264). -/

namespace Sys2Proof.Machine

/-- What one step of the engine, the line or the clock is (R5). -/
theorem inner_cases {tm : Timing} {e : Event} {s t : State} (hin : isInner e = true) (h : perform tm e s = .next t) :
    (∃ a, e = .engine a ∧ engineStep tm a s = .next t) ∨ (∃ b, e = .arrive b ∧ t = arrive b s) ∨
    (e = .tick ∧ t = tick s) := by
  rcases perform_cases h with ⟨_, _, rfl, _⟩ | hengine | harrive | htick | ⟨rfl, _⟩
  · cases hin
  · exact .inl hengine
  · exact .inr (.inl harrive)
  · exact .inr (.inr htick)
  · cases hin

/-! ### The phases in their order -/

/-- A phase's place in the order in which an exchange passes them, IDLE last (R24, R143). -/
def phaseRank : FsmState → Nat
  | .sending => 0
  | .discardingEcho => 1
  | .awaitingHeader => 2
  | .awaitingBody => 3
  | .idle => 4

theorem phaseRank_injective : Function.Injective phaseRank := by
  intro f g h
  cases f <;> cases g <;> simp [phaseRank] at h ⊢

theorem phaseRank_le_idle (f : FsmState) : phaseRank f ≤ phaseRank .idle := by
  cases f <;> decide

/-- From `s` to `t` no phase is gone back to, and a phase that is still there has the deadline it had. -/
structure Advances (s t : State) : Prop where
  rank : phaseRank s.fsm ≤ phaseRank t.fsm
  deadline : t.fsm = s.fsm → t.fsm ≠ .idle → t.deadline = s.deadline

theorem Advances.refl (s : State) : Advances s s := ⟨le_rfl, fun _ _ => rfl⟩

/-- A phase that is the same before and after is the same in between. -/
theorem Advances.trans {s u t : State} (hu : Advances s u) (ht : Advances u t) : Advances s t where
  rank := hu.rank.trans ht.rank
  deadline hf hne := by
    have hmid : u.fsm = s.fsm := phaseRank_injective (le_antisymm (hf ▸ ht.rank) hu.rank)
    rw [ht.deadline (hf.trans hmid.symm) hne, hu.deadline hmid (hmid.trans hf.symm ▸ hne)]

/-- Going on to a later phase is an advance. -/
theorem Advances.of_lt {s t : State} (h : phaseRank s.fsm < phaseRank t.fsm) : Advances s t :=
  ⟨h.le, fun hf => absurd (congrArg phaseRank hf) h.ne'⟩

theorem Completes.advances {s t : State} (h : Completes s t) : Advances s t where
  rank := h.fsm ▸ phaseRank_le_idle s.fsm
  deadline _ hne := absurd h.fsm hne

theorem GoesOn.advances {tm : Timing} {s t : State} (h : GoesOn tm s t) : Advances s t := by
  cases h with
  | startEcho hf | endEcho hf | startBody hf => exact .of_lt (by simp [hf, phaseRank])
  | echo | body => exact ⟨le_rfl, fun _ _ => rfl⟩
  | header => exact ⟨by rw [headerRead_fsm], fun _ _ => headerRead_deadline s⟩

theorem engineStep_advances {tm : Timing} {a : Answer} {s t : State} (h : engineStep tm a s = .next t) :
    Advances s t := by
  rcases engineStep_completes_or_goes_on h with ⟨_, rfl⟩ | ⟨_, hc | hg⟩
  · exact .refl _
  · exact hc.advances
  · exact hg.advances

/-! ### What holds along a run -/

/-- In a phase a TRANSACT is in flight: the half of R24 that an engine turn needs. -/
def InFlightOrIdle (s : State) : Prop := s.fsm ≠ .idle → s.status.busy = true

theorem engineStep_keeps_inFlightOrIdle {tm : Timing} {a : Answer} {s t : State} (hi : InFlightOrIdle s)
    (h : engineStep tm a s = .next t) : InFlightOrIdle t := by
  rcases engineStep_completes_or_goes_on h with ⟨_, rfl⟩ | ⟨hb, hc | hg⟩
  · exact hi
  · exact fun hne => absurd hc.fsm hne
  · obtain ⟨hs, _⟩ := hg.status_result_fsm
    exact fun _ => hs ▸ hb

/-- An engine turn takes no time (R262). -/
theorem engineStep_now {tm : Timing} {a : Answer} {s t : State} (h : engineStep tm a s = .next t) : t.now = s.now := by
  rcases engineStep_completes_or_goes_on h with ⟨_, rfl⟩ | ⟨_, hc | hg⟩
  · rfl
  · rw [hc.frame]
  · rw [hg.frame]

/-- What a run of the engine, the line and the clock keeps, phase by phase, and how far it takes the clock. -/
structure InnerRun (es : List Event) (s t : State) : Prop where
  advances : Advances s t
  inFlightOrIdle : InFlightOrIdle s → InFlightOrIdle t
  now : t.now = s.now + es.count .tick

theorem innerRun_of_perform {tm : Timing} {e : Event} {s t : State} (hin : isInner e = true)
    (h : perform tm e s = .next t) : InnerRun [e] s t := by
  rcases inner_cases hin h with ⟨a, rfl, hx⟩ | ⟨b, rfl, rfl⟩ | ⟨rfl, rfl⟩
  · exact ⟨engineStep_advances hx, fun hi => engineStep_keeps_inFlightOrIdle hi hx, engineStep_now hx⟩
  · exact ⟨⟨le_rfl, fun _ _ => rfl⟩, id, rfl⟩
  · exact ⟨⟨le_rfl, fun _ _ => rfl⟩, id, rfl⟩

theorem innerRun_of_performAll {tm : Timing} {es : List Event} {s t : State} (hin : ∀ e ∈ es, isInner e = true)
    (h : performAll tm es s = .next t) : InnerRun es s t := by
  induction es generalizing s with
  | nil =>
    cases h
    exact ⟨.refl _, id, rfl⟩
  | cons e es ih =>
    obtain ⟨hine, hins⟩ := List.forall_mem_cons.mp hin
    obtain ⟨u, hu, ht⟩ := performAll_cons.mp h
    have hstep := innerRun_of_perform hine hu
    have hrest := ih hins ht
    refine ⟨hstep.advances.trans hrest.advances, hrest.inFlightOrIdle ∘ hstep.inFlightOrIdle, ?_⟩
    rw [hrest.now, hstep.now, Nat.add_assoc, ← List.count_append, List.singleton_append]

/-! ### SENDING and DISCARDING_ECHO end after a number of turns -/

/-- How many engine turns at most an exchange spends before AWAITING_HEADER: one in SENDING, one for each of at most 16
bytes of echo, and one that reads none (R31, R144, R147). -/
def turnsLeft (s : State) : Nat :=
  match s.fsm with
  | .sending => 18
  | .discardingEcho => s.echoRem.toNat + 1
  | _ => 0

theorem turnsLeft_of_sending {s : State} (hf : s.fsm = .sending) : turnsLeft s = 18 := by
  rw [turnsLeft, hf]

theorem turnsLeft_of_echo {s : State} (hf : s.fsm = .discardingEcho) : turnsLeft s = s.echoRem.toNat + 1 := by
  rw [turnsLeft, hf]

/-- No turn is left exactly from AWAITING_HEADER on. -/
theorem turnsLeft_eq_zero_iff (s : State) : turnsLeft s = 0 ↔ phaseRank .awaitingHeader ≤ phaseRank s.fsm := by
  unfold turnsLeft
  cases s.fsm <;> simp [phaseRank]

/-- A turn in SENDING leaves at most the echo of a whole frame (R146). -/
theorem sendingStep_turnsLeft {a : Answer} {s t : State} (h : sendingStep a s = .next t) : turnsLeft t ≤ 17 := by
  obtain ⟨hl, ⟨_, rfl⟩ | ⟨_, _, _, rfl⟩ | ⟨_, _, _, _, rfl⟩ | ⟨_, _, _, _, rfl⟩⟩ := sendingStep_cases h
  · exact Nat.zero_le _
  · exact Nat.zero_le _
  · exact Nat.succ_le_succ hl
  · exact Nat.zero_le _

/-- A turn in DISCARDING_ECHO ends the phase or drops a byte of the echo (R147). -/
theorem echoStep_turnsLeft {tm : Timing} {a : Answer} {s t : State} (hf : s.fsm = .discardingEcho)
    (h : echoStep tm a s = .next t) : turnsLeft t ≤ s.echoRem.toNat := by
  obtain ⟨hne, ⟨_, rfl⟩ | ⟨_, r, _, rfl, ⟨_, rfl⟩ | ⟨_, hq, rfl⟩⟩⟩ := echoStep_cases h
  · exact Nat.zero_le _
  · exact Nat.zero_le _
  · have hpos : s.echoRem.toNat ≠ 0 := fun e => hne (BitVec.eq_of_toNat_eq e)
    have hread : 0 < s.rxq.length := List.length_pos_iff.mpr hq
    have hleft := turnsLeft_of_echo (s := echoRead s) hf
    rw [echoRead, countEcho_echoRem, consume_echoRem, BitVec.toNat_ofNat] at hleft
    change turnsLeft (echoRead s) ≤ _
    rw [echoRead, hleft]
    omega

/-- Each engine turn takes one off the turns left. -/
theorem engineStep_turnsLeft {tm : Timing} {a : Answer} {s t : State} (hi : InFlightOrIdle s)
    (h : engineStep tm a s = .next t) : turnsLeft t ≤ turnsLeft s - 1 := by
  have late (hrank : phaseRank .awaitingHeader ≤ phaseRank s.fsm) : turnsLeft t ≤ turnsLeft s - 1 := by
    rw [(turnsLeft_eq_zero_iff t).mpr (hrank.trans (engineStep_advances h).rank)]
    exact Nat.zero_le _
  rcases engineStep_cases h with ⟨hb, _⟩ | ⟨_, hf, hx⟩ | ⟨_, hf, hx⟩ | ⟨_, hf, _⟩ | ⟨_, hf, _⟩
  · have hidle : s.fsm = .idle := by
      by_contra hne
      cases hb.symm.trans (hi hne)
    exact late (hidle ▸ phaseRank_le_idle _)
  · rw [turnsLeft_of_sending hf]
    exact sendingStep_turnsLeft hx
  · rw [turnsLeft_of_echo hf]
    exact echoStep_turnsLeft hf hx
  · exact late (by rw [hf])
  · exact late (by rw [hf]; decide)

/-- A run takes its engine turns off the turns left. -/
theorem performAll_turnsLeft {tm : Timing} {es : List Event} {s t : State} (hi : InFlightOrIdle s)
    (hin : ∀ e ∈ es, isInner e = true) (h : performAll tm es s = .next t) :
    turnsLeft t ≤ turnsLeft s - (es.filter isEngine).length := by
  induction es generalizing s with
  | nil =>
    cases h
    exact le_rfl
  | cons e es ih =>
    obtain ⟨hine, hins⟩ := List.forall_mem_cons.mp hin
    obtain ⟨u, hu, ht⟩ := performAll_cons.mp h
    have hrest := ih ((innerRun_of_perform hine hu).inFlightOrIdle hi) hins ht
    rcases inner_cases hine hu with ⟨a, rfl, hx⟩ | ⟨b, rfl, rfl⟩ | ⟨rfl, rfl⟩
    · have hturn := engineStep_turnsLeft hi hx
      rw [List.filter_cons_of_pos rfl, List.length_cons]
      omega
    · exact hrest
    · exact hrest

/-- Settles O45: ECHO_REM + 1 turns are what DISCARDING_ECHO has left. -/
theorem echoPhaseIsBounded : Obligations.EchoPhaseIsBounded := by
  intro tm s t es hb hf _ hin hturns h ht
  have hleft := performAll_turnsLeft (fun _ => hb) hin h
  rw [turnsLeft_of_echo hf, turnsLeft_of_echo ht] at hleft
  omega

/-! ### AWAITING_HEADER and AWAITING_BODY end at their deadline -/

/-- A phase with a deadline (R149, R155). -/
abbrev HasDeadline (f : FsmState) : Prop := f = .awaitingHeader ∨ f = .awaitingBody

/-- A turn in AWAITING_HEADER at or past the deadline completes the header or times out (R150, R156). -/
theorem headerStep_expired {tm : Timing} {a : Answer} {s t : State} (hd : s.deadline ≤ s.now)
    (h : headerStep tm a s = .next t) : t.fsm ≠ .awaitingHeader := by
  obtain ⟨_, ⟨_, rfl⟩ | ⟨_, _, ht⟩⟩ := headerStep_cases h
  · nofun
  · obtain rfl : t = afterHeaderRead tm (headerRead s) := ht
    rcases afterHeaderRead_cases tm (headerRead s) with ⟨_, e⟩ | ⟨_, _, e⟩ | ⟨_, hlt, _⟩
    · rcases headerComplete_cases tm (headerRead s) with ⟨_, e'⟩ | ⟨_, e'⟩ | ⟨_, _, e'⟩ <;> rw [e, e'] <;> nofun
    · rw [e]
      nofun
    · rw [headerRead_now, headerRead_deadline] at hlt
      exact absurd hlt (Nat.not_lt.mpr hd)

/-- A turn in AWAITING_BODY at or past the deadline completes the body or times out (R157, R159). -/
theorem bodyStep_expired {a : Answer} {s t : State} (hd : s.deadline ≤ s.now) (h : bodyStep a s = .next t) :
    t.fsm ≠ .awaitingBody := by
  obtain ⟨_, ⟨_, rfl⟩ | ⟨_, _, _, rfl, _, ht⟩⟩ := bodyStep_cases h
  · nofun
  · rcases afterBodyRead_cases ht with ⟨_, hfinal⟩ | ⟨_, _, rfl⟩ | ⟨_, hlt, _⟩
    · rcases finalDecode_cases hfinal with ⟨_, rfl⟩ | ⟨_, rfl⟩ <;> nofun
    · nofun
    · exact absurd hlt (Nat.not_lt.mpr hd)

/-- A turn that meets an expired deadline ends the phase (R264). -/
theorem engineStep_expired {tm : Timing} {a : Answer} {s t : State} (hf : HasDeadline s.fsm)
    (hb : s.status.busy = true) (hd : s.deadline ≤ s.now) (h : engineStep tm a s = .next t) : t.fsm ≠ s.fsm := by
  rcases hf with hf | hf <;> rw [hf]
  · exact headerStep_expired hd (engineStep_of_header hb hf ▸ h)
  · exact bodyStep_expired hd (engineStep_of_body hb hf ▸ h)

/-- A phase with a deadline at most `limit` ahead is over after `limit` ticks and a turn. -/
theorem phase_over_of_ticks {tm : Timing} {f : FsmState} {limit : Nat} {es : List Event} {a : Answer} {s t : State}
    (hf : HasDeadline f) (hi : InFlightOrIdle s) (hrank : phaseRank f ≤ phaseRank s.fsm)
    (hlimit : s.fsm = f → s.deadline ≤ s.now + limit) (hin : ∀ e ∈ es, isInner e = true)
    (hticks : limit ≤ es.count .tick) (h : performAll tm (es ++ [.engine a]) s = .next t) :
    phaseRank f < phaseRank t.fsm := by
  obtain ⟨u, hu, h⟩ := performAll_append.mp h
  obtain ⟨v, hv, h⟩ := performAll_cons.mp h
  cases h
  have hrun := innerRun_of_performAll hin hu
  have hle := hrank.trans hrun.advances.rank
  have hturn : engineStep tm a u = .next t := hv
  by_cases huf : u.fsm = f
  · have hsf : s.fsm = f := phaseRank_injective (le_antisymm (huf ▸ hrun.advances.rank) hrank)
    have hphase : f ≠ .idle := by rcases hf with rfl | rfl <;> nofun
    have hdeadline : u.deadline = s.deadline := hrun.advances.deadline (huf.trans hsf.symm) (huf ▸ hphase)
    have hexpired : u.deadline ≤ u.now := by
      have := hlimit hsf
      rw [hdeadline, hrun.now]
      omega
    have hne := engineStep_expired (huf ▸ hf) (hrun.inFlightOrIdle hi (huf ▸ hphase)) hexpired hturn
    have hmono := (engineStep_advances hturn).rank
    exact huf ▸ lt_of_le_of_ne hmono fun e => hne (phaseRank_injective e).symm
  · exact (lt_of_le_of_ne hle fun e => huf (phaseRank_injective e).symm).trans_le (engineStep_advances hturn).rank

/-- Every agent step keeps the invariant, so every run does. -/
theorem performAll_keeps_inv {tm : Timing} {es : List Event} {s t : State} (hi : TransceiverInv tm s)
    (h : performAll tm es s = .next t) : TransceiverInv tm t := by
  induction es generalizing s with
  | nil =>
    cases h
    exact hi
  | cons e es ih =>
    obtain ⟨u, hu, ht⟩ := performAll_cons.mp h
    exact ih (perform_keeps_inv hi hu) ht

/-- The invariant has R24. -/
theorem inFlightOrIdle_of_inv {tm : Timing} {s : State} (hi : TransceiverInv tm s) : InFlightOrIdle s := by
  obtain ⟨⟨hbusy, _⟩, _⟩ := hi
  exact hbusy.mpr

/-- The header deadline is at most T_HEADER_MS ahead (R149). -/
theorem headerDeadline_le_of_inv {tm : Timing} {s : State} (hi : TransceiverInv tm s) (hf : s.fsm = .awaitingHeader) :
    s.deadline ≤ s.now + tm.header := by
  obtain ⟨_, _, _, _, _, hheader, _⟩ := hi
  obtain ⟨_, _, _, hd⟩ := hheader hf
  exact hd

/-- The body deadline is at most T_BODY_MS ahead (R155). -/
theorem bodyDeadline_le_of_inv {tm : Timing} {s : State} (hi : TransceiverInv tm s) (hf : s.fsm = .awaitingBody) :
    s.deadline ≤ s.now + tm.body := by
  obtain ⟨_, _, _, _, _, _, hbody⟩ := hi
  exact ((bodyInv_iff tm s).mp hbody hf).deadline

/-- In SENDING at most 18 turns are left, and in DISCARDING_ECHO at most 17, since TXLEN is at most 16 (R31, R34). -/
theorem turnsLeft_le_of_inv {tm : Timing} {s : State} (hi : TransceiverInv tm s) : turnsLeft s ≤ 18 := by
  obtain ⟨_, ⟨htx, _⟩, _, _, hecho, _⟩ := hi
  have hlen : s.txlen.toNat ≤ 16 := htx.elim (fun h => by rw [h]; decide) And.right
  unfold turnsLeft
  split
  next => exact le_rfl
  next hf =>
    obtain ⟨_, _, hle, _⟩ := hecho hf
    omega
  next => exact Nat.zero_le _

/-- Settles O46: 18 turns end SENDING and DISCARDING_ECHO, and each deadline, once passed, ends its phase. -/
theorem transactCompletesWhenEngineAndClockRun : Obligations.TransactCompletesWhenEngineAndClockRun := by
  intro tm s t es₁ es₂ es₃ a b hi hin hturns hheader hbody h
  simp only [List.forall_mem_append] at hin
  obtain ⟨⟨hin₁, hin₂⟩, hin₃⟩ := hin
  rw [List.append_assoc _ es₃, performAll_append, List.append_assoc es₁] at h
  obtain ⟨w, hw, ht⟩ := h
  obtain ⟨u, hu, hw⟩ := performAll_append.mp hw
  have hiu := performAll_keeps_inv hi hu
  have hiw := performAll_keeps_inv hiu hw
  have hit := performAll_keeps_inv hiw ht
  have hreceiving : phaseRank .awaitingHeader ≤ phaseRank u.fsm := by
    have hleft := performAll_turnsLeft (inFlightOrIdle_of_inv hi) hin₁ hu
    have hmax := turnsLeft_le_of_inv hi
    exact (turnsLeft_eq_zero_iff u).mp (by omega)
  have hpastHeader : phaseRank .awaitingHeader < phaseRank w.fsm :=
    phase_over_of_ticks (.inl rfl) (inFlightOrIdle_of_inv hiu) hreceiving (headerDeadline_le_of_inv hiu) hin₂ hheader hw
  have hpastBody : phaseRank .awaitingBody < phaseRank t.fsm :=
    phase_over_of_ticks (.inr rfl) (inFlightOrIdle_of_inv hiw) hpastHeader (bodyDeadline_le_of_inv hiw) hin₃ hbody ht
  have hidle : t.fsm = .idle := phaseRank_injective (le_antisymm (phaseRank_le_idle _) hpastBody)
  obtain ⟨⟨hbusy, _⟩, _⟩ := hit
  exact Bool.eq_false_iff.mpr fun hb => hbusy.mp hb hidle

end Sys2Proof.Machine

/-! PROOFS. The header phase as a scan of the bytes received for the first header (spec/41_transaction.md R150 to R153,
section 7). -/

namespace Sys2Proof.Machine

/-! ### The bytes held -/

/-- The bytes held in RXBUF, RXBUF[0 .. RXCNT-1] (R32, R33). -/
def heldBytes (s : State) : List Byte := s.rxbuf.toList.take s.rxcnt.toNat

theorem received_eq (s : State) : received s = heldBytes s ++ s.rxq := rfl

theorem length_heldBytes {s : State} (h : s.rxcnt.toNat ≤ 16) : (heldBytes s).length = s.rxcnt.toNat := by
  rw [heldBytes, List.length_take, Vector.length_toList, Nat.min_eq_left h]

theorem getElem_heldBytes {s : State} {i : Nat} (hi : i < (heldBytes s).length) :
    (heldBytes s)[i] = byteAt s.rxbuf i := by
  have h16 : i < 16 := lt_of_lt_of_le hi (by simp [heldBytes])
  simp [heldBytes, byteAt_eq _ _ h16]

/-- An append puts its bytes after those held (R151). -/
theorem heldBytes_appendRx {bytes : List Byte} {s : State} (h : s.rxcnt.toNat + bytes.length ≤ 16) :
    heldBytes (appendRx bytes s) = heldBytes s ++ bytes := by
  have hcnt := appendRx_count h
  have hlen : (heldBytes s).length = s.rxcnt.toNat := length_heldBytes (by omega)
  have hlen' : (heldBytes (appendRx bytes s)).length = s.rxcnt.toNat + bytes.length := by
    rw [length_heldBytes (by omega), hcnt]
  refine List.ext_getElem (by rw [hlen', List.length_append, hlen]) fun i hi _ => ?_
  rw [getElem_heldBytes, List.getElem_append]
  split
  next hlt => rw [appendRx_byteAt_lt (by omega) (by omega), getElem_heldBytes]
  next hge =>
    rw [appendRx_byteAt _ _ _ (by omega), if_pos (by omega), List.getD_eq_getElem _ _ (by omega)]
    simp only [hlen]

/-- A shift of `resync()` drops the first byte held (R152). -/
theorem heldBytes_shiftRx {s : State} (h : s.rxcnt.toNat ≤ 16) : heldBytes (shiftRx s) = (heldBytes s).drop 1 := by
  have hlen := length_heldBytes h
  have hlen' : (heldBytes (shiftRx s)).length = s.rxcnt.toNat - 1 := by
    rw [length_heldBytes (by rw [shiftRx_count]; omega), shiftRx_count]
  refine List.ext_getElem (by rw [hlen', List.length_drop, hlen]) fun i hi _ => ?_
  rw [getElem_heldBytes, List.getElem_drop, getElem_heldBytes, shiftRx_byteAt _ _ (by omega), if_pos (by omega),
    Nat.add_comm]

/-! ### The scan -/

/-- Of the bytes `q` received since the phase began, the first `p` are dropped and the rest are held or pending. No
header stands at a dropped byte, and the byte after it is received, so none will. -/
structure ScannedTo (q : List Byte) (p : Nat) (s : State) : Prop where
  rest : q.drop p = received s
  passed : ∀ j, j < p → j + 1 < q.length ∧ ¬ HeaderAt q j

theorem ScannedTo.le_length {q : List Byte} {p : Nat} {s : State} (h : ScannedTo q p s) : p ≤ q.length := by
  rcases Nat.eq_zero_or_pos p with rfl | hp
  · exact Nat.zero_le _
  · have := (h.passed (p - 1) (by omega)).1
    omega

/-- The bytes from the scan's place on. -/
theorem ScannedTo.getElem? {q : List Byte} {p : Nat} {s : State} (h : ScannedTo q p s) (k : Nat) :
    q[p + k]? = (received s)[k]? := by
  rw [← h.rest, List.getElem?_drop]

/-- The bytes held stand at the scan's place. -/
theorem ScannedTo.getElem?_held {q : List Byte} {p k : Nat} {s : State} (h : ScannedTo q p s) (h16 : s.rxcnt.toNat ≤ 16)
    (hk : k < s.rxcnt.toNat) : q[p + k]? = some (byteAt s.rxbuf k) := by
  have hlen := length_heldBytes h16
  rw [h.getElem?, received_eq, List.getElem?_append_left (by omega), List.getElem?_eq_getElem (by omega),
    getElem_heldBytes]

/-- Where two bytes are held, a header stands at the scan's place exactly if it stands in front of RXBUF (R111). -/
theorem ScannedTo.headerAt_iff {q : List Byte} {p : Nat} {s : State} (h : ScannedTo q p s) (h16 : s.rxcnt.toNat ≤ 16)
    (h2 : 2 ≤ s.rxcnt.toNat) : HeaderAt q p ↔ hdrOk (byteAt s.rxbuf 0) (byteAt s.rxbuf 1) = true := by
  have h0 := h.getElem?_held h16 (k := 0) (by omega)
  have h1 := h.getElem?_held h16 (k := 1) (by omega)
  rw [Nat.add_zero] at h0
  rw [HeaderAt, h0, h1, Option.some_inj, Option.some_inj, hdrOk, Bool.and_eq_true, beq_iff_eq, beq_iff_eq]

/-- A byte that arrives is scanned later (R61). -/
theorem ScannedTo.arrive {q : List Byte} {p : Nat} {s : State} (h : ScannedTo q p s) (b : Byte) :
    ScannedTo (q ++ [b]) p (arrive b s) where
  rest := by
    rw [List.drop_append_of_le_length h.le_length, h.rest]
    exact List.append_assoc _ _ _
  passed j hj := by
    obtain ⟨hlt, hno⟩ := h.passed j hj
    rw [HeaderAt, List.getElem?_append_left (by omega), List.getElem?_append_left hlt, List.length_append]
    exact ⟨by omega, hno⟩

/-- A read moves pending bytes to those held (R64, R151). -/
theorem ScannedTo.read {q : List Byte} {p n : Nat} {s : State} (h : ScannedTo q p s) (h16 : s.rxcnt.toNat + n ≤ 16) :
    ScannedTo q p (appendRx (s.rxq.take n) (consume n s)) where
  rest := by
    have hfits : s.rxcnt.toNat + (s.rxq.take n).length ≤ 16 := by
      rw [List.length_take]
      omega
    rw [h.rest, received_eq, received_eq, heldBytes_appendRx (s := consume n s) hfits, List.append_assoc]
    exact congrArg (heldBytes s ++ ·) (List.take_append_drop n s.rxq).symm
  passed := h.passed

/-- One resync drops at most one byte, and none at which a header stands (R152). -/
theorem ScannedTo.resync {q : List Byte} {p : Nat} {s : State} (h : ScannedTo q p s) (h16 : s.rxcnt.toNat ≤ 16) :
    ∃ p', ScannedTo q p' (resync s) := by
  rcases resync_cases s with ⟨hn, e⟩ | ⟨_, e⟩ <;> rw [e]
  · have hlen := length_heldBytes h16
    obtain ⟨h2, hhdr⟩ : 2 ≤ s.rxcnt.toNat ∧ ¬ hdrOk (byteAt s.rxbuf 0) (byteAt s.rxbuf 1) = true := by
      simpa [needsShift] using hn
    have hlong : 2 ≤ (q.drop p).length := by
      rw [h.rest, received_eq, List.length_append]
      omega
    rw [List.length_drop] at hlong
    refine ⟨p + 1, ?_, fun j hj => ?_⟩
    · rw [← List.drop_drop, h.rest, received_eq, received_eq, heldBytes_shiftRx h16,
        List.drop_append_of_le_length (by omega)]
      rfl
    · rcases Nat.lt_succ_iff_lt_or_eq.mp hj with hlt | rfl
      · exact h.passed j hlt
      · exact ⟨by omega, fun hat => hhdr ((h.headerAt_iff h16 h2).mp hat)⟩
  · exact ⟨p, h⟩

/-- A header read goes on with the scan (R150). -/
theorem ScannedTo.headerRead {q : List Byte} {p : Nat} {s : State} (h : ScannedTo q p s) (hc : s.rxcnt.toNat ≤ 3) :
    ∃ p', ScannedTo q p' (headerRead s) := by
  refine (h.read (n := 4 - s.rxcnt.toNat) (by omega)).resync ?_
  rw [appendRx_rxcnt, consume_rxcnt, BitVec.toNat_ofNat, List.length_take]
  omega

/-! ### The phase -/

/-- In AWAITING_HEADER, with the bytes `q` received since the phase began scanned up to some place (R150). -/
structure ScansHeader (q : List Byte) (s : State) : Prop where
  busy : s.status.busy = true
  count : s.rxcnt.toNat ≤ 3
  scanned : ∃ p, ScannedTo q p s

/-- An engine turn that stays in AWAITING_HEADER is a header read (R150, R156). -/
theorem engineStep_stays_header {tm : Timing} {a : Answer} {s t : State} (hb : s.status.busy = true)
    (hf : s.fsm = .awaitingHeader) (h : engineStep tm a s = .next t) (ht : t.fsm = .awaitingHeader) :
    t = headerRead s ∧ t.rxcnt.toNat ≠ 4 := by
  rcases engineStep_completes_or_goes_on h with ⟨hb', _⟩ | ⟨_, hc | hg⟩
  · cases hb.symm.trans hb'
  · cases hc.fsm.symm.trans ht
  · cases hg with
    | header _ hne => exact ⟨rfl, hne⟩
    | startEcho hf' | echo hf' | endEcho hf' | body hf' => cases hf.symm.trans hf'
    | startBody => cases ht

/-- An engine turn that leaves AWAITING_HEADER for AWAITING_BODY is a header read that holds the header (R153, R155). -/
theorem engineStep_header_to_body {tm : Timing} {a : Answer} {s t : State} (hf : s.fsm = .awaitingHeader)
    (h : engineStep tm a s = .next t) (ht : t.fsm = .awaitingBody) :
    t.rxbuf = (headerRead s).rxbuf ∧ (headerRead s).rxcnt.toNat = 4 := by
  rcases engineStep_completes_or_goes_on h with ⟨_, rfl⟩ | ⟨_, hc | hg⟩
  · cases hf.symm.trans ht
  · cases hc.fsm.symm.trans ht
  · cases hg with
    | startBody _ h4 => exact ⟨rfl, h4⟩
    | header => cases hf.symm.trans ((headerRead_fsm s).symm.trans ht)
    | startEcho hf' | echo hf' | endEcho hf' | body hf' => cases hf.symm.trans hf'

/-- The scan goes on along a run that stays in AWAITING_HEADER: an engine turn reads, a byte that arrives is pending. -/
theorem ScansHeader.run {tm : Timing} {es : List Event} {q : List Byte} {s u : State} (hs : ScansHeader q s)
    (hf : s.fsm = .awaitingHeader) (hin : ∀ e ∈ es, isInner e = true) (h : performAll tm es s = .next u)
    (hu : u.fsm = .awaitingHeader) : ScansHeader (q ++ arrivals es) u := by
  induction es generalizing q s with
  | nil =>
    cases h
    rwa [arrivals, List.append_nil]
  | cons e es ih =>
    obtain ⟨hine, hins⟩ := List.forall_mem_cons.mp hin
    obtain ⟨v, hv, hrest⟩ := performAll_cons.mp h
    obtain ⟨p, hp⟩ := hs.scanned
    rcases inner_cases hine hv with ⟨a, rfl, hx⟩ | ⟨b, rfl, rfl⟩ | ⟨rfl, rfl⟩
    · have hvf : v.fsm = .awaitingHeader := phaseRank_injective (le_antisymm
        (hu ▸ (innerRun_of_performAll hins hrest).advances.rank) (hf ▸ (engineStep_advances hx).rank))
      obtain ⟨rfl, hne⟩ := engineStep_stays_header hs.busy hf hx hvf
      obtain ⟨hle, _⟩ := headerRead_count hs.count
      exact ih ⟨by rw [headerRead_status, hs.busy], by omega, hp.headerRead hs.count⟩ hvf hins hrest
    · have hend := ih (q := q ++ [b]) (s := arrive b s) ⟨hs.busy, hs.count, p, hp.arrive b⟩ hf hins hrest
      rwa [List.append_assoc] at hend
    · exact ih (s := tick s) ⟨hs.busy, hs.count, p, hp.rest, hp.passed⟩ hf hins hrest

/-- Settles O44: the scan stands at the first header when the phase ends in AWAITING_BODY. -/
theorem headerPhaseTakesTheFirstHeader : Obligations.HeaderPhaseTakesTheFirstHeader := by
  intro tm s u t es a hb hf hc hin hrun huf hturn htf
  have hzero : s.rxcnt.toNat = 0 := congrArg BitVec.toNat hc
  have hstart : ScansHeader s.rxq s := by
    refine ⟨hb, by omega, 0, ?_, nofun⟩
    rw [received_eq, heldBytes, hzero]
    rfl
  have hscan := hstart.run hf hin hrun huf
  obtain ⟨hbuf, h4⟩ := engineStep_header_to_body huf hturn htf
  obtain ⟨_, hhdr⟩ := headerRead_count hscan.count
  obtain ⟨p, hp⟩ := hscan.scanned
  obtain ⟨p', hp'⟩ := hp.headerRead hscan.count
  refine ⟨p', fun k hk => ?_, (hp'.headerAt_iff (by omega) (by omega)).mpr (hhdr h4), fun j hj => (hp'.passed j hj).2⟩
  rw [hbuf]
  exact hp'.getElem?_held (by omega) (by omega)

end Sys2Proof.Machine

/-! PROOFS. No agent step stops the machine (spec/42_host_access.md R188; spec/60_exceptions.md R250). -/

namespace Sys2Proof.Machine

/-- No access word stops the machine: it decodes, and its instruction has a next state (R92, R188). -/
theorem hostStep_runs (w : AccessWord) (s : State) : Runs (hostStep w s) := by
  obtain ⟨i, hd, _⟩ := everyAccessWordIsAnInstruction w
  rw [hostStep_of_decode hd]
  exact exec_runs i s

/-- From a state of the invariant no agent stops the machine: `perform_runs` has the quiet agents, and the rest are the
accesses and the reset. -/
theorem perform_runs_of_inv {tm : Timing} (e : Event) {s : State} (hi : TransceiverInv tm s) :
    Runs (perform tm e s) := by
  cases e with
  | access w => exact hostStep_runs w s
  | engine a => exact perform_runs hi rfl
  | arrive b => exact perform_runs hi rfl
  | tick => exact perform_runs hi rfl
  | reset => exact ⟨_, rfl⟩

/-- Settles O39: taking the next agent step off keeps the invariant, and from there no agent stops the machine. -/
theorem machineNeverStops : Obligations.MachineNeverStops := by
  intro s hi
  cases hu : s.upcoming with
  | cons e rest =>
    rw [step_of_upcoming_cons hu]
    exact perform_runs_of_inv (s := { s with upcoming := rest }) e hi
  | nil =>
    rw [step_of_upcoming_nil hu]
    exact perform_runs_of_inv (s := { s with draws := s.draws + 1 }) _ hi

end Sys2Proof.Machine

/-! PROOFS. The register map by offset, and what an access at each does (spec/10_state.md R20; spec/42_host_access.md
R180 to R188). -/

namespace Sys2Proof.Machine

/-! ### The map -/

/-- An offset with a register's number is that register's (R20). -/
theorem regAt_eq_of_toNat {off : Offset} {r : Reg} (h : off.toNat = (offsetOf r).toNat) : regAt off = r := by
  rw [BitVec.eq_of_toNat_eq h, regAt_offsetOf]

/-- REQ_PARAM[0..9] stand at 0x10 to 0x19 (R20, R29). -/
theorem regAt_reqParam {off : Offset} {i : Fin 10} (h : off.toNat = 0x10 + i.val) : regAt off = .reqParam i :=
  regAt_eq_of_toNat (by rw [h, offsetOf, BitVec.toNat_ofNat]; omega)

/-- TXBUF[0..15] stand at 0x20 to 0x2F (R20, R30). -/
theorem regAt_txbuf {off : Offset} {i : Fin 16} (h : off.toNat = 0x20 + i.val) : regAt off = .txbuf i :=
  regAt_eq_of_toNat (by rw [h, offsetOf, BitVec.toNat_ofNat]; omega)

/-- RXBUF[0..15] stand at 0x30 to 0x3F (R20, R32). -/
theorem regAt_rxbuf {off : Offset} {i : Fin 16} (h : off.toNat = 0x30 + i.val) : regAt off = .rxbuf i :=
  regAt_eq_of_toNat (by rw [h, offsetOf, BitVec.toNat_ofNat]; omega)

/-- The offsets from 0x30 on are RXBUF's, the last of the map (R20). -/
theorem exists_regAt_rxbuf {off : Offset} (h : 0x30 ≤ off.toNat) : ∃ i, regAt off = .rxbuf i := by
  have hlt := off.isLt
  exact ⟨⟨off.toNat - 0x30, by omega⟩, regAt_rxbuf (by simp only; omega)⟩

/-- The reserved offsets hold no register (R36). -/
theorem regAt_of_reserved {off : Offset} (h : IsReservedOffset off) : regAt off = .reserved := by
  revert off
  decide

/-- The read-only offsets hold registers that the host never writes, in the words of `writeReg_readOnly` (R185). -/
theorem regAt_of_readOnly {off : Offset} (h : IsReadOnlyOffset off) :
    regAt off = .status ∨ regAt off = .result ∨ regAt off = .fsmState ∨ regAt off = .txlen ∨ regAt off = .echoRem ∨
      regAt off = .expLen ∨ regAt off = .reserved ∨ ∃ i, regAt off = .txbuf i := by
  rcases h with ⟨hlo, hhi⟩ | h | h | h | ⟨hlo, hhi⟩
  · obtain h | h | h : off.toNat = 1 ∨ off.toNat = 2 ∨ off.toNat = 3 := by omega
    · simp [regAt_eq_of_toNat (r := .status) h]
    · simp [regAt_eq_of_toNat (r := .result) h]
    · simp [regAt_eq_of_toNat (r := .fsmState) h]
  · simp [regAt_eq_of_toNat (r := .txlen) h]
  · simp [regAt_eq_of_toNat (r := .echoRem) h]
  · simp [regAt_eq_of_toNat (r := .expLen) h]
  · simp [regAt_txbuf (off := off) (i := ⟨off.toNat - 0x20, by omega⟩) (by simp only; omega)]

/-- The request offsets hold the request registers (R20, R187). -/
theorem regAt_of_request {off : Offset} (h : IsRequestOffset off) :
    regAt off = .reqId ∨ regAt off = .reqCmd ∨ regAt off = .reqNparam ∨ ∃ i, regAt off = .reqParam i := by
  rcases h with ⟨hlo, hhi⟩ | ⟨hlo, hhi⟩
  · obtain h | h | h : off.toNat = 4 ∨ off.toNat = 5 ∨ off.toNat = 6 := by omega
    · exact .inl (regAt_eq_of_toNat h)
    · exact .inr (.inl (regAt_eq_of_toNat h))
    · exact .inr (.inr (.inl (regAt_eq_of_toNat h)))
  · exact .inr (.inr (.inr ⟨⟨off.toNat - 0x10, by omega⟩, regAt_reqParam (by simp only; omega)⟩))

/-! ### Accesses at a known register -/

/-- REG_WRITE writes the register at its offset (R181). -/
theorem exec_regWrite_at {off : Offset} {r : Reg} (h : regAt off = r) (v : Byte) (s : State) :
    exec (.regWrite off v) s = .next (writeReg v s r) := by
  rw [← h]
  rfl

/-- REG_READ returns what the register at its offset reads as (R180). -/
theorem regRead_at {off : Offset} {r : Reg} (h : regAt off = r) (s : State) : regRead s off = readReg s r := by
  rw [regRead, h]

/-! ### The bits of the coded registers -/

/-- The flags of STATUS, bit by bit (R23, R180). -/
theorem getLsbD_statusByte (st : Status) :
    (statusByte st).getLsbD 0 = st.busy ∧ (statusByte st).getLsbD 1 = st.done ∧
    (statusByte st).getLsbD 2 = st.rejected ∧ (statusByte st).getLsbD 3 = st.replyExp := by
  obtain ⟨b, d, r, e⟩ := st
  revert b d r e
  decide

/-- A byte below 2^n has no bit from n on. -/
theorem getLsbD_of_lt {b : Byte} {n k : Nat} (hb : b.toNat < 2 ^ n) (hk : n ≤ k) : b.getLsbD k = false :=
  Nat.testBit_lt_two_pow (hb.trans_le (Nat.pow_le_pow_right (by omega) hk))

/-- Bits 7 to 4 of STATUS read 0 (R23, R188). -/
theorem getLsbD_statusByte_reserved (st : Status) {k : Nat} (hk : 4 ≤ k) : (statusByte st).getLsbD k = false := by
  refine getLsbD_of_lt (n := 4) ?_ hk
  obtain ⟨b, d, r, e⟩ := st
  revert b d r e
  decide

/-- Bits 7 to 3 of FSM_STATE read 0 (R24, R188). -/
theorem getLsbD_fsmByte_reserved (f : FsmState) {k : Nat} (hk : 3 ≤ k) : (fsmByte f).getLsbD k = false := by
  refine getLsbD_of_lt (n := 3) ?_ hk
  cases f <;> decide

/-! ### What the host reads -/

/-- Settles O8: the byte is `regRead`'s, and the map says which register each offset reads. -/
theorem registerReadFollowsTheMap : Obligations.RegisterReadFollowsTheMap := by
  intro s off
  refine ⟨regRead s off, rfl, ?ctrl, ?status, ?result, ?fsm, ?reqId, ?reqCmd, ?reqNparam, ?txlen, ?rxcnt, ?echoRem,
    ?expLen, fun i hi => regRead_at (regAt_reqParam hi) s, fun i hi => regRead_at (regAt_txbuf hi) s,
    fun i hi => regRead_at (regAt_rxbuf hi) s, fun h => regRead_at (regAt_of_reserved h) s⟩
  case status =>
    rintro rfl
    obtain ⟨hbusy, hdone, hrejected, hreply⟩ := getLsbD_statusByte s.status
    exact ⟨hbusy, hdone, hrejected, hreply, fun k => getLsbD_statusByte_reserved s.status⟩
  case fsm =>
    rintro rfl
    have hread : regRead s 0x03 = fsmByte s.fsm := rfl
    rw [hread]
    refine ⟨?_, ?_, ?_, ?_, ?_⟩ <;> intro hf <;> rw [hf] <;> rfl
  all_goals
    rintro rfl
    rfl

/-- Settles O9: reserved offsets by the map, reserved bits by the coded registers, and every access by `exec_runs`. -/
theorem reservedOffsetsAreInertAndNoAccessFaults : Obligations.ReservedOffsetsAreInertAndNoAccessFaults := by
  refine ⟨fun s off v h => ⟨?read, ?write⟩, fun s k => getLsbD_statusByte_reserved s.status,
    fun s k => getLsbD_fsmByte_reserved s.fsm, fun s off v => ⟨rfl, exec_runs _ s⟩⟩
  case read =>
    have hzero : regRead s off = 0x00 := regRead_at (regAt_of_reserved h) s
    rw [← hzero]
    rfl
  case write => exact exec_regWrite_at (regAt_of_reserved h) v s

/-! ### What the host writes -/

/-- Settles O10: each of these offsets holds a register that takes no write. -/
theorem readOnlyOffsetsIgnoreWrites : Obligations.ReadOnlyOffsetsIgnoreWrites := by
  intro s off v h
  rw [exec_regWrite_at rfl, writeReg_readOnly v s _ (regAt_of_readOnly h)]

/-- A write that is taken only while BUSY = 0, while BUSY = 0 (R186). -/
theorem whenIdle_of_idle {s : State} (write : State → State) (hb : s.status.busy = false) :
    whenIdle write s = write s := by
  rw [whenIdle, if_neg (by rw [hb]; exact Bool.false_ne_true)]

/-- A write that is taken only while BUSY = 0, while BUSY = 1 (R186). -/
theorem whenIdle_of_busy {s : State} (write : State → State) (hb : s.status.busy = true) : whenIdle write s = s :=
  if_pos hb

/-- Settles O11: RXCNT and RXBUF are the registers written through `whenIdle`, and no other access writes them. -/
theorem receiveRegistersAreWrittenOnlyWhileIdle : Obligations.ReceiveRegistersAreWrittenOnlyWhileIdle := by
  refine ⟨fun s v hb => ⟨?rxcntIdle, fun i off h => ?rxbufIdle⟩, fun s v hb => ⟨?rxcntBusy, fun off h => ?rxbufBusy⟩,
    fun i s t hb h => ((hostFrame_of_busy hb h).receive hb).symm⟩
  case rxcntIdle => rw [exec_regWrite_at (r := .rxcnt) rfl, writeReg, whenIdle_of_idle _ hb]
  case rxbufIdle => rw [exec_regWrite_at (regAt_rxbuf h), writeReg, whenIdle_of_idle _ hb]
  case rxcntBusy => rw [exec_regWrite_at (r := .rxcnt) rfl, writeReg, whenIdle_of_busy _ hb]
  case rxbufBusy =>
    obtain ⟨i, hi⟩ := exists_regAt_rxbuf h
    rw [exec_regWrite_at hi, writeReg, whenIdle_of_busy _ hb]

/-- Settles O14: a CTRL byte with OP = 0 is NOP, so O13 gives the write its effect, which is none. -/
theorem nopHasNoEffect : Obligations.NopHasNoEffect := by
  refine ⟨fun s => rfl, fun s v hop => ?_⟩
  have hnop : decode (accessWord true 0x00 v) = .ok .ctrlNop := by
    rw [decode_ctrl_access, ctrlInstr, hop]
    rfl
  exact ⟨hnop, ctrlWriteRunsItsCommand s v .ctrlNop hnop⟩

end Sys2Proof.Machine

/-! PROOFS. Every way an agent step writes STATUS (spec/42_host_access.md R183, R184; spec/60_exceptions.md R255). -/

namespace Sys2Proof.Machine

/-- A start while BUSY = 1 is turned away (R183). -/
theorem guardedStart_of_busy {c : State → State} {s : State} (hb : s.status.busy = true) :
    guardedStart c s = rejectStart s :=
  if_pos hb

/-- While BUSY = 1 every CTRL write with OP ≠ 0 is turned away (R183). -/
theorem ctrlWrite_of_busy {v : Byte} {s : State} (hb : s.status.busy = true) (hop : v.extractLsb' 0 2 ≠ 0) :
    ctrlWrite v s = rejectStart s := by
  unfold ctrlWrite
  split
  next h0 => exact absurd (BitVec.eq_of_toNat_eq h0) hop
  all_goals exact guardedStart_of_busy hb

/-- ENCODE completes in the step that starts it (R116, R255). -/
theorem encodeCommand_busy (s : State) : (encodeCommand s).status.busy = false := by
  rcases encodeCommand_cases s with ⟨_, _, e⟩ | ⟨_, _, e⟩ <;> rw [e] <;> rfl

/-- DECODE completes in the step that starts it (R117, R255). -/
theorem decodeCommand_busy (s : State) : (decodeCommand s).status.busy = false := by
  rcases decodeCommand_cases s with ⟨_, e⟩ | ⟨_, e⟩ <;> rw [e] <;> rfl

/-- A register write anywhere but at CTRL leaves STATUS (R185 to R187). -/
theorem writeReg_status {r : Reg} (v : Byte) (s : State) (hr : r ≠ .ctrl) : (writeReg v s r).status = s.status := by
  rcases writeReg_cases v s r with e | ⟨hc, _⟩ | ⟨_, e⟩ | ⟨_, e⟩ | ⟨_, e⟩ | ⟨_, _, e⟩ | ⟨_, _, e⟩ | ⟨_, _, _, e⟩
  · rw [e]
  · exact absurd hc hr
  all_goals rw [e]

/-- How a step from `s` to `t` writes STATUS: not at all, by turning a start away, or by a completion; by an accepted
start, of which only a TRANSACT leaves BUSY = 1; or by a reset. -/
inductive WritesStatus (e : Event) (s t : State) : Prop
  | same (h : t.status = s.status)
  | rejects (h : t.status = statusOnReject s.status)
  | completes (h : t.status = statusOnComplete s.status)
  | starts {w : AccessWord} (he : e = .access w) (hw : StartsCommand w) (hs : s.status.busy = false)
      (ht : t.status.busy = true → ∃ want, decode w = .ok (.ctrlTransact want))
  | resets (he : e = .reset) (ht : t.status.busy = false)

/-- A start, by whether it is turned away (R183, R184). -/
theorem guardedStart_writesStatus {w : AccessWord} (c : State → State) (s : State) (hw : StartsCommand w)
    (hc : (c (acceptStart s)).status.busy = true → ∃ want, decode w = .ok (.ctrlTransact want)) :
    WritesStatus (.access w) s (guardedStart c s) := by
  rcases guardedStart_cases c s with ⟨_, e⟩ | ⟨hb, e⟩ <;> rw [e]
  · exact .rejects rfl
  · exact .starts rfl hw hb hc

/-- A host access writes STATUS only by a start (R183 to R187). -/
theorem exec_writesStatus {w : AccessWord} {i : Instr} {s t : State} (hd : decode w = .ok i)
    (h : exec i s = .next t) : WritesStatus (.access w) s t := by
  rcases exec_cases h with ⟨_, rfl⟩ | ⟨rfl, rfl⟩ | ⟨rfl, rfl⟩ | ⟨want, rfl, rfl⟩ | ⟨off, v, rfl, rfl⟩ | ⟨off, _, rfl⟩
  · exact .same rfl
  · exact guardedStart_writesStatus _ _ (.inl hd) fun hb => nomatch (encodeCommand_busy _).symm.trans hb
  · exact guardedStart_writesStatus _ _ (.inr (.inl hd)) fun hb => nomatch (decodeCommand_busy _).symm.trans hb
  · exact guardedStart_writesStatus _ _ (.inr (.inr ⟨want, hd⟩)) fun _ => ⟨want, hd⟩
  · refine .same (writeReg_status v s fun hr => ?_)
    exact Sys2Proof.Laws.decode_regWrite_off hd (BitVec.eq_of_toNat_eq ((regAt_special off).1 hr))
  · exact .same rfl

/-- Every agent step writes STATUS in one of these ways. -/
theorem perform_writesStatus {tm : Timing} {e : Event} {s t : State} (h : perform tm e s = .next t) :
    WritesStatus e s t := by
  rcases perform_cases h with ⟨w, i, rfl, hd, hx⟩ | ⟨a, _, hx⟩ | ⟨b, _, rfl⟩ | ⟨_, rfl⟩ | ⟨he, rfl⟩
  · exact exec_writesStatus hd hx
  · rcases engineStep_completes_or_goes_on hx with ⟨_, rfl⟩ | ⟨_, hc | hg⟩
    · exact .same rfl
    · exact .completes hc.status
    · exact .same hg.status_result_fsm.1
  · exact .same rfl
  · exact .same rfl
  · exact .resets he rfl

/-- Settles O15: the dispatch turns the start away, and of the ways to write STATUS only a start and a reset clear
REJECTED, only a start sets BUSY. -/
theorem startWhileBusyIsRejected : Obligations.StartWhileBusyIsRejected := by
  refine ⟨fun s v i hb hop hd => ?rejected, fun tm e s t h hold hnew => ?clears, fun tm e s t h hold hnew => ?sets⟩
  case rejected =>
    obtain rfl : ctrlInstr v = i := Except.ok.inj ((decode_ctrl_access v).symm.trans hd)
    rw [exec_ctrlInstr, ctrlWrite_of_busy hb hop]
    rfl
  case clears =>
    cases perform_writesStatus h with
    | same hst => rw [hst, hold] at hnew; cases hnew
    | rejects hst => rw [hst] at hnew; cases hnew
    | completes hst => rw [hst] at hnew; cases hold.symm.trans hnew
    | starts he hw hb => exact .inr ⟨hb, _, he, hw⟩
    | resets he => exact .inl he
  case sets =>
    cases perform_writesStatus h with
    | same hst => rw [hst, hold] at hnew; cases hnew
    | rejects hst => rw [hst] at hnew; cases hold.symm.trans hnew
    | completes hst => rw [hst] at hnew; cases hnew
    | starts he _ _ ht =>
      obtain ⟨want, hd⟩ := ht hnew
      exact ⟨_, want, he, hd⟩
    | resets _ ht => cases ht.symm.trans hnew

end Sys2Proof.Machine

/-! PROOFS. The engine does not see the request registers: a turn of an exchange in flight gives the same with any
request in them (spec/42_host_access.md R187; spec/41_transaction.md R143 to R160). -/

namespace Sys2Proof.Machine

/-! ### A request loaded into a state -/

/-- The contents of the request registers REQ_ID, REQ_CMD, REQ_NPARAM and REQ_PARAM (R26 to R29). -/
structure RequestRegs where
  id : Byte
  cmd : Byte
  nparam : Byte
  param : Vector Byte 10

/-- The request registers of a state. -/
def requestRegs (s : State) : RequestRegs := ⟨s.reqId, s.reqCmd, s.reqNparam, s.reqParam⟩

/-- The state with these request registers. -/
def withRequest (q : RequestRegs) (s : State) : State :=
  { s with reqId := q.id, reqCmd := q.cmd, reqNparam := q.nparam, reqParam := q.param }

/-- An outcome with these request registers in its next state. -/
def outcomeWithRequest (q : RequestRegs) : Host.Outcome State Fault Refusal → Host.Outcome State Fault Refusal
  | .next t => .next (withRequest q t)
  | .fault r => .fault r
  | .refused r => .refused r

section
variable (tm : Timing) (a : Answer) (q : RequestRegs) (s : State)

/-! ### Each phase's turn -/

/-- SENDING (R144 to R146). -/
theorem sendingStep_withRequest : sendingStep a (withRequest q s) = outcomeWithRequest q (sendingStep a s) := by
  unfold sendingStep
  cases a with
  | err =>
    rw [apply_ite (outcomeWithRequest q)]
    rfl
  | ok u =>
    simp only [transportWrite_ok]
    rw [apply_ite (outcomeWithRequest q), apply_ite (outcomeWithRequest q), apply_ite (outcomeWithRequest q)]
    rfl

theorem afterEchoRead_withRequest (k : Nat) :
    afterEchoRead tm k (withRequest q s) = withRequest q (afterEchoRead tm k s) := by
  unfold afterEchoRead
  rw [apply_ite (withRequest q)]
  rfl

/-- DISCARDING_ECHO (R147 to R149). -/
theorem echoStep_withRequest :
    echoStep tm a (withRequest q s) = outcomeWithRequest q (echoStep tm a s) := by
  unfold echoStep
  rw [apply_ite (outcomeWithRequest q)]
  cases a with
  | err => rfl
  | ok u =>
    simp only [transportRead_ok, outcomeWithRequest]
    rw [← afterEchoRead_withRequest]
    rfl

theorem resync_withRequest : resync (withRequest q s) = withRequest q (resync s) := by
  unfold resync
  rw [apply_ite (withRequest q)]
  rfl

theorem headerComplete_withRequest :
    headerComplete tm (withRequest q s) = withRequest q (headerComplete tm s) := by
  unfold headerComplete
  rw [apply_ite (withRequest q), apply_ite (withRequest q)]
  rfl

theorem afterHeaderRead_withRequest :
    afterHeaderRead tm (withRequest q s) = withRequest q (afterHeaderRead tm s) := by
  unfold afterHeaderRead
  rw [apply_ite (withRequest q), apply_ite (withRequest q), headerComplete_withRequest]
  rfl

/-- AWAITING_HEADER (R150 to R156). -/
theorem headerStep_withRequest :
    headerStep tm a (withRequest q s) = outcomeWithRequest q (headerStep tm a s) := by
  unfold headerStep
  rw [apply_ite (outcomeWithRequest q)]
  cases a with
  | err => rfl
  | ok u =>
    simp only [transportRead_ok, outcomeWithRequest]
    rw [← afterHeaderRead_withRequest, ← resync_withRequest]
    rfl

theorem finalDecode_withRequest : finalDecode (withRequest q s) = outcomeWithRequest q (finalDecode s) := by
  have hrx : decodeFrame (withRequest q s).rxbuf (withRequest q s).rxcnt.toNat = decodeFrame s.rxbuf s.rxcnt.toNat :=
    rfl
  rw [finalDecode, finalDecode, hrx]
  cases decodeFrame s.rxbuf s.rxcnt.toNat with
  | ok f => rfl
  | error r =>
    dsimp only
    rw [apply_ite (outcomeWithRequest q)]
    rfl

theorem afterBodyRead_withRequest : afterBodyRead (withRequest q s) = outcomeWithRequest q (afterBodyRead s) := by
  unfold afterBodyRead
  rw [apply_ite (outcomeWithRequest q), apply_ite (outcomeWithRequest q), finalDecode_withRequest]
  rfl

/-- AWAITING_BODY (R157 to R159). -/
theorem bodyStep_withRequest : bodyStep a (withRequest q s) = outcomeWithRequest q (bodyStep a s) := by
  unfold bodyStep
  cases a with
  | err =>
    rw [apply_ite (outcomeWithRequest q)]
    rfl
  | ok u =>
    simp only [transportRead_ok]
    rw [apply_ite (outcomeWithRequest q), apply_ite (outcomeWithRequest q), ← afterBodyRead_withRequest]
    rfl

/-- The engine's turn is the same with any request loaded, but for the request (R187). -/
theorem engineStep_withRequest :
    engineStep tm a (withRequest q s) = outcomeWithRequest q (engineStep tm a s) := by
  have hbusy : (withRequest q s).status.busy = s.status.busy := rfl
  have hfsm : (withRequest q s).fsm = s.fsm := rfl
  rw [engineStep, engineStep, hbusy, hfsm]
  cases s.status.busy with
  | false => rfl
  | true =>
    cases s.fsm with
    | idle => rfl
    | sending => exact sendingStep_withRequest a q s
    | discardingEcho => exact echoStep_withRequest tm a q s
    | awaitingHeader => exact headerStep_withRequest tm a q s
    | awaitingBody => exact bodyStep_withRequest a q s

end

/-! ### The host's writes of the request registers -/

/-- A write of a request register changes the request, by what the request was, and nothing else (R181, R187). -/
theorem writeReg_request {r : Reg} (v : Byte)
    (hr : r = .reqId ∨ r = .reqCmd ∨ r = .reqNparam ∨ ∃ i, r = .reqParam i) :
    ∃ f : RequestRegs → RequestRegs, ∀ s, writeReg v s r = withRequest (f (requestRegs s)) s := by
  rcases hr with rfl | rfl | rfl | ⟨i, rfl⟩
  · exact ⟨fun q => { q with id := v }, fun _ => rfl⟩
  · exact ⟨fun q => { q with cmd := v }, fun _ => rfl⟩
  · exact ⟨fun q => { q with nparam := v }, fun _ => rfl⟩
  · exact ⟨fun q => { q with param := q.param.set i v }, fun _ => rfl⟩

/-- The engine writes no request register (R187). -/
theorem engineStep_requestRegs {tm : Timing} {a : Answer} {s t : State} (h : engineStep tm a s = .next t) :
    requestRegs t = requestRegs s := by
  rcases engineStep_completes_or_goes_on h with ⟨_, rfl⟩ | ⟨_, hc | hg⟩
  · rfl
  · rw [hc.frame]
    rfl
  · rw [hg.frame]
    rfl

/-- Settles O12: the write loads one request into both states, and the engine's turn does not see it. -/
theorem requestRegistersAreWritableAlways : Obligations.RequestRegistersAreWritableAlways := by
  refine ⟨fun s v => ⟨rfl, rfl, rfl, fun i off h => exec_regWrite_at (regAt_reqParam h) v s⟩,
    fun tm a s s' t t' off v _ hoff hs ht ht' => ?commute⟩
  case commute =>
    obtain ⟨f, hwrite⟩ := writeReg_request v (regAt_of_request hoff)
    obtain rfl : writeReg v s (regAt off) = s' := Host.Outcome.next.inj hs
    obtain rfl : writeReg v t (regAt off) = t' := Host.Outcome.next.inj ht'
    rw [hwrite, hwrite, engineStep_requestRegs ht, engineStep_withRequest, ht]
    rfl

end Sys2Proof.Machine

/-! PROOFS. The Command Catalog's 16-bit fields, and the angle limits that the Bus Controller sends
(spec/45_payload_formats.md R200, R202, R206; spec/46_host_operations.md R227). -/

namespace Sys2Proof.Machine

/-! ### 16-bit fields -/

/-- A 16-bit value is its low byte and 256 times its high byte (R200). -/
theorem toNat_eq_lo_add_hi (v : Word16) :
    v.toNat = (v.extractLsb' 0 8).toNat + 256 * (v.extractLsb' 8 8).toNat := by
  simp only [BitVec.extractLsb'_toNat, Nat.shiftRight_eq_div_pow]
  omega

/-- The two bytes of a 16-bit field decode to its value (R200). -/
theorem u16ofLe_bytes (v : Word16) : u16ofLe (v.extractLsb' 0 8) (v.extractLsb' 8 8) = v := by
  rw [u16ofLe, ← toNat_eq_lo_add_hi, BitVec.ofNat_toNat, BitVec.setWidth_eq]

/-- Decoding an i16 field reads its u16 in two's complement (R202). -/
theorem i16ofLe_eq_toInt (lo hi : Byte) : i16ofLe lo hi = (u16ofLe lo hi).toInt := by
  rw [i16ofLe, BitVec.toInt_eq_toNat_cond]
  split <;> split <;> omega

/-- The u16 that an i16 is sent as is its value mod 65536 (R202). -/
theorem toNat_ofInt_word16 (s : Int) : ((BitVec.ofInt 16 s).toNat : Int) = s % 65536 := by
  rw [BitVec.toNat_ofInt]
  omega

/-- Settles O55: both kinds of field are the two bytes of one 16-bit word, which the decoder puts together again. -/
theorem sixteenBitFieldsRoundTrip : Obligations.SixteenBitFieldsRoundTrip := by
  refine ⟨fun v => ⟨_, _, rfl, toNat_eq_lo_add_hi v, u16ofLe_bytes v⟩,
    fun s hmin hmax => ⟨_, _, rfl, ?value, ?decode⟩, ?examples⟩
  case value =>
    have hbytes := toNat_eq_lo_add_hi (BitVec.ofInt 16 s)
    have hvalue := toNat_ofInt_word16 s
    omega
  case decode =>
    rw [i16ofLe_eq_toInt, u16ofLe_bytes]
    exact BitVec.toInt_ofInt_eq_self (by decide) hmin (by omega)
  case examples => decide

/-! ### Angle limits -/

section
variable (codes : CommandCodes) (id : Byte) {x y : BitVec 64} {lo hi : Word16}

/-- The angle-limit write goes out as ISSUE with no reply wanted, each limit low byte first (R206, R210). -/
theorem issueAndName_angleLimits :
    issueAndName codes id .angleLimitWrite (angleLimitsPayload lo hi) =
      issue id codes.angleLimitWrite
        [lo.extractLsb' 0 8, lo.extractLsb' 8 8, hi.extractLsb' 0 8, hi.extractLsb' 8 8] false
        fun r => .done (nameOf r) := by
  rw [issueAndName, issueCommand_eq]
  rfl

/-- Bounds in order are sent as they are (R227). -/
theorem setAngleLimits_of_le (hx : pos x = some lo) (hy : pos y = some hi) (h : lo.toNat ≤ hi.toNat) :
    setAngleLimits codes id x y = issueAndName codes id .angleLimitWrite (angleLimitsPayload lo hi) := by
  simp only [setAngleLimits, hx, hy]
  exact if_neg (Nat.not_lt.mpr h)

/-- Bounds out of order are swapped (R227). -/
theorem setAngleLimits_of_lt (hx : pos x = some lo) (hy : pos y = some hi) (h : hi.toNat < lo.toNat) :
    setAngleLimits codes id x y = issueAndName codes id .angleLimitWrite (angleLimitsPayload hi lo) := by
  simp only [setAngleLimits, hx, hy]
  exact if_pos h

/-- An angle without a position is refused by the host (R221, R227). -/
theorem setAngleLimits_of_refused (h : pos x = none ∨ pos y = none) :
    setAngleLimits codes id x y = .done (.named .invalidRequest) := by
  rcases h with hx | hy
  · simp only [setAngleLimits, hx]
  · simp only [setAngleLimits, hy]
    cases pos x <;> rfl

/-- The order of the bounds does not matter (R227). -/
theorem setAngleLimits_comm (x y : BitVec 64) : setAngleLimits codes id x y = setAngleLimits codes id y x := by
  cases hx : pos x with
  | none => rw [setAngleLimits_of_refused codes id (.inl hx), setAngleLimits_of_refused codes id (.inr hx)]
  | some lo =>
    cases hy : pos y with
    | none => rw [setAngleLimits_of_refused codes id (.inr hy), setAngleLimits_of_refused codes id (.inl hy)]
    | some hi =>
      rcases Nat.lt_trichotomy lo.toNat hi.toNat with h | h | h
      · rw [setAngleLimits_of_le codes id hx hy h.le, setAngleLimits_of_lt codes id hy hx h]
      · obtain rfl := BitVec.eq_of_toNat_eq h
        rw [setAngleLimits_of_le codes id hx hy le_rfl, setAngleLimits_of_le codes id hy hx le_rfl]
      · rw [setAngleLimits_of_lt codes id hx hy h, setAngleLimits_of_le codes id hy hx h.le]

end

/-- Settles O57, by the order of the two positions and whether there are two. -/
theorem angleLimitsAreNormalised : Obligations.AngleLimitsAreNormalised := by
  refine fun codes id x y => ⟨fun lo hi hx hy => ⟨fun h => ?inOrder, fun h => ?swapped⟩, fun h => ?refused,
    setAngleLimits_comm codes id x y⟩
  case inOrder => rw [setAngleLimits_of_le codes id hx hy h, issueAndName_angleLimits]
  case swapped => rw [setAngleLimits_of_lt codes id hx hy h, issueAndName_angleLimits]
  case refused =>
    rw [setAngleLimits_of_refused codes id h]
    exact ⟨rfl, rfl⟩

end Sys2Proof.Machine

/-! PROOFS. The angle conversion POS: which angles it refuses, and the range and sign of the positions it gives
(spec/46_host_operations.md R221). -/

namespace Sys2Proof.Machine

/-! ### The clamp -/

/-- The clamped number fits a position, so storing it in 16 bits keeps its value (R221). -/
theorem toNat_clampPosition (r : Int) : ((clampPosition r).toNat : Int) = min (max r 0) 1000 := by
  rw [clampPosition, toNat_ofInt_word16]
  omega

/-- The clamp's upper bound (R221). -/
theorem clampPosition_le (r : Int) : (clampPosition r).toNat ≤ 1000 := by
  have hvalue := toNat_clampPosition r
  omega

/-- The clamp's lower bound: what is not positive becomes 0 (R221). -/
theorem clampPosition_of_nonpos {r : Int} (h : r ≤ 0) : clampPosition r = 0 := by
  rw [clampPosition, max_eq_right h]
  rfl

/-! ### Finite angles -/

/-- NaN and ±∞ are the patterns whose exponent field is all ones (R221). -/
theorem finite64_eq_none_iff (a : BitVec 64) : finite64 a = none ↔ a.extractLsb' 52 11 = 0x7FF := by
  have hfield : (a.extractLsb' 52 11).toNat = 2047 ↔ a.extractLsb' 52 11 = 0x7FF := BitVec.toNat_inj (y := 0x7FF)
  rw [← hfield, finite64]
  split
  next hones => exact iff_of_true rfl hones
  next hfinite =>
    refine iff_of_false ?_ hfinite
    split <;> exact Option.some_ne_none _

/-- A finite number, subnormal or normal, has the sign of its bit 63 (R221). -/
theorem finite64_negative {a : BitVec 64} {x : Real64} (h : finite64 a = some x) : x.negative = a.getLsbD 63 := by
  rw [finite64] at h
  split at h
  next => cases h
  next =>
    split at h
    all_goals
      cases h
      rfl

/-! ### POS -/

/-- POS refuses what is not finite, and nothing else (R221). -/
theorem pos_eq_none_iff (a : BitVec 64) : pos a = none ↔ finite64 a = none := Option.map_eq_none_iff

/-- A position is the clamp of a rounded magnitude that carries the angle's sign (R221). -/
theorem pos_cases {a : BitVec 64} {p : Word16} (h : pos a = some p) :
    ∃ r : Nat, p = clampPosition (if a.getLsbD 63 then -(r : Int) else (r : Int)) := by
  obtain ⟨x, hx, rfl⟩ := Option.map_eq_some_iff.mp h
  rw [← finite64_negative hx]
  exact ⟨_, rfl⟩

/-- Settles O56: POS refuses what `finite64` does, and the clamp bounds the signed magnitude of `pos_cases`. -/
theorem positionsAreClampedAndNonFiniteRefused : Obligations.PositionsAreClampedAndNonFiniteRefused := by
  refine fun a => ⟨(pos_eq_none_iff a).trans (finite64_eq_none_iff a), fun p hp => ?clamped⟩
  case clamped =>
    obtain ⟨r, rfl⟩ := pos_cases hp
    refine ⟨clampPosition_le _, fun hsign => ?_⟩
    rw [if_pos hsign]
    exact clampPosition_of_nonpos (by omega)

end Sys2Proof.Machine

/-! PROOFS. Host programs that read registers, and the Bus Controller's position read
(spec/42_host_access.md R180; spec/46_host_operations.md R224, R225). -/

namespace Sys2Proof.Machine

/-! ### Reads by a host program -/

/-- A read changes no register (R55). -/
@[simp] theorem readReg_returnToHost (b : Byte) (s : State) (r : Reg) :
    readReg (returnToHost b s) r = readReg s r := by
  cases r <;> rfl

/-- A host's read is one REG_READ, and the program goes on with the byte it returned (R57, R180). -/
theorem hostTurn_rd {α : Type} (r : Reg) (next : Byte → HostProgram α) (s : State) :
    hostTurn (.rd (offsetOf r) next) s = .next (next (readReg s r), returnToHost (readReg s r) s) := by
  have hstep : hostStep (accessWord false (offsetOf r) 0) s = .next (returnToHost (readReg s r) s) := by
    rw [← regRead_at (regAt_offsetOf r) s]
    exact hostStep_of_decode (decode_read_access (offsetOf r) 0) s
  have hbyte : (returnToHost (readReg s r) s).hostReads.getLastD 0 = readReg s r := by simp
  simp only [hostTurn, nextAccess, hstep, afterAccess, hbyte]

/-- A host program that begins with a read goes on after it (R57). -/
theorem hostTurns_rd {α : Type} (k : Nat) (r : Reg) (next : Byte → HostProgram α) (s : State) :
    hostTurns (k + 1) (.rd (offsetOf r) next) s =
      hostTurns k (next (readReg s r)) (returnToHost (readReg s r) s) := by
  rw [hostTurns, hostTurn_rd r next s]

/-! ### The position read -/

/-- Two parameters is a length byte of 5 (R225). -/
theorem declaresTwoParams_iff (l : Byte) : (l.toNat : Int) - 3 = 2 ↔ l = 5 := by
  rw [← BitVec.toNat_inj, show (5 : Byte).toNat = 5 from rfl]
  omega

/-- Settles O60: the first read is the length byte, which decides whether the two bytes of the position are read. -/
theorem positionReplyIsDecodedByShape : Obligations.PositionReplyIsDecodedByShape := by
  refine fun s => ⟨fun h => ?twoParams, fun h => ?otherShape⟩
  case twoParams =>
    have hshape : ¬ ((readReg s (.rxbuf 3)).toNat : Int) - 3 ≠ 2 := not_not_intro ((declaresTwoParams_iff _).mpr h)
    rw [decodePositionReply, hostTurns_rd, if_neg hshape, hostTurns_rd, hostTurns_rd, hostTurns]
    simp [returnToHost, readReg, u16ofLe]
  case otherShape =>
    have hshape : ((readReg s (.rxbuf 3)).toNat : Int) - 3 ≠ 2 := mt (declaresTwoParams_iff _).mp h
    rw [decodePositionReply, hostTurns_rd, if_pos hshape]
    rfl

/-- The host refuses a position read of the broadcast id (R224). -/
theorem readPosition_broadcast (codes : CommandCodes) :
    readPosition codes Config.broadcastId = .done (.named .invalidRequest) := if_pos rfl

/-- Settles O58: 254 is the broadcast id, and a program that is done makes no access. -/
theorem broadcastReadIsRefusedByTheHost : Obligations.BroadcastReadIsRefusedByTheHost := by
  intro codes
  have hrefused : readPosition codes 254 = .done (.named .invalidRequest) := readPosition_broadcast codes
  exact ⟨hrefused, by rw [hrefused]; rfl⟩

end Sys2Proof.Machine

/-! PROOFS. A completion and the outcomes each command can produce (spec/60_exceptions.md R253, R255). -/

namespace Sys2Proof.Machine

/-! ### The completion -/

/-- RESULT is the detail shifted above the code (R91, R255). -/
theorem resultByte_eq_or (c : Code) (d : BitVec 4) :
    resultByte ⟨c, d⟩ = (d.setWidth 8 <<< 4) ||| (codeBits c).setWidth 8 := by
  rw [resultByte, BitVec.append_def, BitVec.shiftLeftZeroExtend_eq, BitVec.setWidth'_eq]

/-- While BUSY = 0 the engine is in IDLE (R24). -/
theorem fsm_of_not_busy {s : State} (hi : StatusInv s) (hb : s.status.busy = false) : s.fsm = .idle := by
  obtain ⟨hphase, _⟩ := hi
  by_contra hf
  exact Bool.false_ne_true (hb.symm.trans (hphase.mpr hf))

/-- Settles O27: the completion is a record update, and IDLE with BUSY = 0 is what an idle transceiver already has. -/
theorem completionWritesExactlyItsRegisters : Obligations.CompletionWritesExactlyItsRegisters := by
  refine ⟨fun c d s => ?registers, fun r s hi hb => ⟨?busy, ?fsm⟩⟩
  case registers => rw [complete, resultByte_eq_or, statusOnComplete]
  case busy => rw [complete_status, hb, statusOnComplete]
  case fsm => rw [complete_fsm, fsm_of_not_busy hi hb]

/-! ### The raise matrix -/

/-- A request that does not encode is INVALID_REQUEST 1 or 2 (R113, R253). -/
theorem encodeRequest_error_result {s : State} {r : Raised} (h : encodeRequest s = .error r) :
    resultByte r ∈ [0x17, 0x27] := by
  rcases encodeFrame_error h with rfl | rfl <;> decide

/-- The outcomes of ENCODE (R253). -/
theorem encodeCommand_result (s : State) : (encodeCommand s).result ∈ [0x00, 0x17, 0x27] := by
  rcases encodeCommand_cases s with ⟨f, _, e⟩ | ⟨r, hr, e⟩ <;> rw [e, complete_result]
  · decide
  · exact List.mem_cons_of_mem _ (encodeRequest_error_result hr)

/-- The outcomes of DecodeFrame (R114, R253). -/
theorem raisedBy_decodeFrame_result (b : Vector Byte 16) (c : Nat) :
    resultByte (raisedBy (decodeFrame b c)) ∈ [0x00, 0x15, 0x25, 0x35, 0x45, 0x06, 0x04] := by
  cases h : decodeFrame b c with
  | ok f =>
    change resultByte ⟨.ok, 0⟩ ∈ _
    decide
  | error r => rcases decodeFrame_error h with rfl | rfl | rfl | rfl | rfl | rfl <;> decide

/-- The outcomes of DECODE: those of DecodeFrame, and the refusal of too large a count (R117, R253). -/
theorem decodeCommand_result (s : State) :
    (decodeCommand s).result ∈ [0x00, 0x15, 0x25, 0x35, 0x45, 0x06, 0x04, 0x37] := by
  rcases decodeCommand_cases s with ⟨_, e⟩ | ⟨_, e⟩ <;> rw [e, complete_result]
  · decide
  · exact List.mem_append_left [0x37] (raisedBy_decodeFrame_result _ _)

/-- A TRANSACT that completes at its start was refused by EncodeFrame (R140, R253). -/
theorem transactCommand_result {want : Bool} {s : State} (h : (transactCommand want s).status.busy = false) :
    (transactCommand want s).result ∈ [0x17, 0x27] := by
  rcases transactCommand_cases want s with ⟨r, hr, e⟩ | ⟨f, _, e⟩ <;> rw [e] at h ⊢
  · exact encodeRequest_error_result hr
  · cases h

/-- The outcomes of the engine: a turn that leaves BUSY = 0 has completed the TRANSACT (R143, R253). -/
theorem engineStep_result {tm : Timing} {a : Answer} {s t : State} (hb : s.status.busy = true)
    (h : engineStep tm a s = .next t) (ht : t.status.busy = false) : t.result ∈ engineResults := by
  rcases engineStep_completes_or_goes_on h with ⟨hb', _⟩ | ⟨_, hc | hg⟩
  · cases hb.symm.trans hb'
  · exact hc.result
  · obtain ⟨hstatus, _⟩ := hg.status_result_fsm
    cases hb.symm.trans (hstatus ▸ ht)

/-- Settles O28, a row of the matrix at a time: an accepted start runs its command, and NOP has no effect. -/
theorem raiseMatrixIsExhaustive : Obligations.RaiseMatrixIsExhaustive := by
  refine ⟨fun s t hb h => ?encode, fun s t hb h => ?decode, fun s t want hb h ht => ?transact,
    fun tm a s t => engineStep_result, fun s t h => ?nop⟩
  case encode =>
    obtain rfl := Host.Outcome.next.inj ((exec_ctrlEncode hb).symm.trans h)
    exact encodeCommand_result _
  case decode =>
    obtain rfl := Host.Outcome.next.inj ((exec_ctrlDecode hb).symm.trans h)
    exact decodeCommand_result _
  case transact =>
    obtain rfl := Host.Outcome.next.inj ((exec_ctrlTransact want hb).symm.trans h)
    exact transactCommand_result ht
  case nop =>
    obtain rfl : s = t := Host.Outcome.next.inj h
    exact ⟨rfl, rfl⟩

end Sys2Proof.Machine

/-! PROOFS. The clock, and the deadline test of a wrapping counter (spec/60_exceptions.md R262, R264;
spec/70_reset_and_hazards.md R281). -/

namespace Sys2Proof.Machine

/-! ### The clock -/

theorem HostFrame.now {s t : State} (h : HostFrame s t) : t.now = s.now := by
  rw [h.frame]

/-- A start takes no time (R184, R262). -/
theorem Started.now {s t : State} (h : Started s t) : t.now = s.now := by
  rcases h with rfl | rfl | ⟨want, rfl⟩
  · rcases encodeCommand_cases (acceptStart s) with ⟨_, _, e⟩ | ⟨_, _, e⟩ <;> rw [e] <;> rfl
  · rcases decodeCommand_cases (acceptStart s) with ⟨_, e⟩ | ⟨_, e⟩ <;> rw [e] <;> rfl
  · rcases transactCommand_cases want (acceptStart s) with ⟨_, _, e⟩ | ⟨_, _, e⟩ <;> rw [e] <;> rfl

/-- No agent but the clock takes time, and a reset leaves the clock (R262, R281). -/
theorem perform_now {tm : Timing} {e : Event} {s t : State} (hne : e ≠ .tick) (h : perform tm e s = .next t) :
    t.now = s.now := by
  rcases perform_cases h with ⟨w, i, _, hd, hx⟩ | ⟨a, _, hx⟩ | ⟨b, _, rfl⟩ | ⟨htick, _⟩ | ⟨_, rfl⟩
  · rcases access_cases hd hx with hframe | ⟨_, _, hstart⟩
    · exact hframe.now
    · exact hstart.now
  · exact engineStep_now hx
  · exact arrive_now s b
  · exact absurd htick hne
  · exact platformReset_now s

/-- Settles O34: a tick adds 1, and `perform_now` has every other agent step. -/
theorem clockAdvancesByTickAlone : Obligations.ClockAdvancesByTickAlone := by
  refine fun tm e s t h => ⟨fun htick => ?_, fun hne => perform_now hne h⟩
  subst htick
  obtain rfl : tick s = t := Host.Outcome.next.inj h
  exact tick_now s

/-! ### The wrapping deadline test (R264) -/

section
variable {width k : Nat} (n : Nat)

/-- A W-bit counter that is `k` ahead, less than a whole turn, differs by `k`. -/
theorem toNat_ofNat_add_sub (hk : k < 2 ^ width) :
    (BitVec.ofNat width (n + k) - BitVec.ofNat width n).toNat = k := by
  rw [BitVec.ofNat_add, add_sub_cancel_left, BitVec.toNat_ofNat, Nat.mod_eq_of_lt hk]

/-- A W-bit counter that is `k` behind, less than a whole turn, differs by the rest of the turn. -/
theorem toNat_ofNat_sub_add (h0 : 0 < k) (hk : k < 2 ^ width) :
    (BitVec.ofNat width n - BitVec.ofNat width (n + k)).toNat = 2 ^ width - k := by
  rw [BitVec.ofNat_add, sub_add_cancel_left, BitVec.toNat_neg, BitVec.toNat_ofNat, Nat.mod_eq_of_lt hk,
    Nat.mod_eq_of_lt (by omega)]

end

/-- Settles O54: the difference is below half a turn where the clock is ahead, and above it where it is behind. -/
theorem wrappedDeadlineTestAgrees : Obligations.WrappedDeadlineTestAgrees := by
  intro width now deadline hw hnear hnear'
  have hturn : 2 ^ width = 2 * 2 ^ (width - 1) := (mul_pow_sub_one (by omega) 2).symm
  have hpos : 0 < 2 ^ (width - 1) := Nat.two_pow_pos _
  rw [deadlinePassedWrapped, decide_eq_true_iff]
  rcases le_or_gt deadline now with hle | hlt
  case inl =>
    obtain ⟨k, rfl⟩ := Nat.exists_eq_add_of_le hle
    rw [toNat_ofNat_add_sub deadline (by omega)]
    omega
  case inr =>
    obtain ⟨k, rfl⟩ := Nat.exists_eq_add_of_le hlt.le
    rw [toNat_ofNat_sub_add now (by omega) (by omega)]
    omega

end Sys2Proof.Machine

/-! PROOFS. The reset state: what the host reads there, the invariants it meets, and the frame its request registers
make (spec/70_reset_and_hazards.md R280, R281, R286). -/

namespace Sys2Proof.Machine

/-! ### What the host reads -/

theorem readReg_reset (r : Reg) : readReg State.reset r = 0x00 := by
  cases r with
  | reqParam i => exact Vector.getElem_replicate i.isLt
  | txbuf i => exact Vector.getElem_replicate i.isLt
  | rxbuf i => exact Vector.getElem_replicate i.isLt
  | _ => rfl

/-- A platform reset leaves nothing of the state before it to the host's reads (R280). -/
theorem readReg_platformReset (s : State) (r : Reg) : readReg (platformReset s) r = readReg State.reset r := by
  cases r <;> rfl

/-- Settles O35: by register, the reset values, which a platform reset restores. -/
theorem resetClearsEveryRegister : Obligations.ResetClearsEveryRegister := by
  refine ⟨fun off => readReg_reset (regAt off), rfl, fun tm s => ⟨platformReset s, rfl, fun off => ?_, ?_⟩⟩
  · exact (readReg_platformReset s (regAt off)).trans (readReg_reset (regAt off))
  · exact ⟨platformReset_deadline s, platformReset_rxq s, platformReset_now s, platformReset_line s⟩

/-! ### The frame of the reset values -/

/-- The request of the reset state: id 0, command 0 and no parameters (R286). -/
theorem encodeRequest_reset : encodeRequest State.reset = .ok [0x55, 0x55, 0x00, 0x03, 0x00, 0xFC] := by decide

/-- What a TRANSACT start puts into TXBUF[0 .. TXLEN-1] is the frame of its request (R140). -/
theorem txFrame_sessionWith {s : State} {f : List Byte} (want : Bool) (hf : encodeRequest s = .ok f) :
    txFrame (sessionWith want f s) = f := by
  obtain ⟨hlen, hn⟩ := encodeFrame_length hf
  change (bufOfList f).toList.take (BitVec.ofNat 8 f.length).toNat = f
  rw [toNat_ofNat_encodeFrame_length hf]
  exact take_bufOfList f (by omega)

/-- A whole write in SENDING puts the frame in TXBUF on the line, whether or not a reply is expected (R144). -/
theorem engineStep_sending_whole (tm : Timing) {s : State} (hb : s.status.busy = true) (hf : s.fsm = .sending)
    (hl : s.txlen.toNat ≤ 16) : ∃ v, engineStep tm (.ok 0) s = .next v ∧ v.line = s.line ++ txFrame s := by
  obtain ⟨_, _, hnone, hreply⟩ := sendingDiscardsWritesAndGoesOn tm s hb hf hl
  cases hr : s.status.replyExp with
  | false => exact ⟨_, hnone hr, rfl⟩
  | true => exact ⟨_, hreply hr, rfl⟩

/-- Settles O36: the reset values encode, so the start fills TXBUF with their frame, and a whole write sends it. -/
theorem resetRequestSendsTheDefaultFrame : Obligations.ResetRequestSendsTheDefaultFrame := by
  intro tm want
  have hframe := txFrame_sessionWith want encodeRequest_reset
  obtain ⟨v, hturn, hline⟩ := engineStep_sending_whole tm
    (s := sessionWith want [0x55, 0x55, 0x00, 0x03, 0x00, 0xFC] State.reset) rfl rfl (show 6 ≤ 16 by decide)
  rw [hframe] at hline
  exact ⟨_, v, exec_ctrlTransact_of_ok want rfl encodeRequest_reset, hframe, hturn, hline⟩

/-! ### The invariants -/

/-- Settles O37: the reset state is its own platform reset, which meets the invariant, and its TXBUF is empty. -/
theorem resetMeetsTheInvariants : Obligations.ResetMeetsTheInvariants :=
  ⟨platformReset_inv Config.timing State.reset, .inl ⟨rfl, rfl⟩⟩

end Sys2Proof.Machine
